-- ==== Sys2Proof/Word.lean ====
section
/-!
DEFINITION. The words of the block's interface: bytes, tri-state bytes, operation words, response words.
-/

namespace Sys2Proof

/-- A byte: every data item of the block is 8 bits (20_memory.md R50). -/
abbrev Byte := BitVec 8

/-- An operation word `op[10:9], V[8], B[7:0]` (30_encoding.md R71). -/
abbrev OpWord := BitVec 11

/-- A response word `ACK[9], DV[8], D[7:0]` (30_encoding.md R73). -/
abbrev RespWord := BitVec 10

/-- A tri-state byte: a concrete byte, or the absent value `Z` (30_encoding.md R72, 00_scope.md R9). -/
inductive Tri where
  | z
  | byte (b : Byte)
deriving DecidableEq, Repr

end Sys2Proof
end

