-- ==== Sys2Proof/Machine/Protocol.lean ====
section
/-!
DEFINITION. The protocol's byte values (00_scope.md R6), the protocol state and its encoding (10_state.md R23, R24), the
fields of an operation word (30_encoding.md R71, R72, R88) and the response words (R73, R74).
-/

namespace Sys2Proof.Machine

/-- The 11-bit protocol state, tag and step, every encoding of it (10_state.md R24). -/
structure PState where
  tag : BitVec 3
  step : BitVec 8
deriving DecidableEq, Repr

/-- `IDLE`, tag 000 (10_state.md R24). -/
abbrev PState.idle : PState := ⟨0b000#3, 0#8⟩

/-- `AWAIT_CMD`, tag 001 (10_state.md R24). -/
abbrev PState.awaitCmd : PState := ⟨0b001#3, 0#8⟩

/-- `READ(s)`, tag 010 (10_state.md R24). -/
abbrev PState.read (s : BitVec 8) : PState := ⟨0b010#3, s⟩

/-- `WRITE(s)`, tag 011 (10_state.md R24). -/
abbrev PState.write (s : BitVec 8) : PState := ⟨0b011#3, s⟩

/-- `IDENT(s)`, tag 100 (10_state.md R24). -/
abbrev PState.ident (s : BitVec 8) : PState := ⟨0b100#3, s⟩

/-- The 11 bits of a protocol state: tag above step (10_state.md R24). -/
def PState.bits (p : PState) : BitVec 11 := p.tag ++ p.step

/-- The protocol state that 11 bits encode (10_state.md R24). -/
def PState.ofBits (w : BitVec 11) : PState := ⟨w.extractLsb' 8 3, w.extractLsb' 0 8⟩

/-- The step lies in a range. -/
def PState.stepIn (p : PState) (lo hi : Nat) : Bool := Nat.ble lo p.step.toNat && Nat.ble p.step.toNat hi

/-- The 284 legal protocol states: the step ranges of 10_state.md R23. -/
def PState.legal (p : PState) : Bool :=
  p == PState.idle || p == PState.awaitCmd
    || (p.tag == 0b010#3 && p.stepIn 0 137)
    || (p.tag == 0b011#3 && p.stepIn 0 135)
    || (p.tag == 0b100#3 && p.stepIn 0 7)

/-- `POISON`, the address value of an out-of-range request (00_scope.md R6). -/
def poison : BitVec 16 := 0xFFFF#16

/-- `MAX_SECTOR`, the largest sector number (00_scope.md R6). -/
def maxSector : BitVec 16 := 0x03FF#16

/-- `FLAG_RESET`, the value of `flag` after power-on (00_scope.md R6). -/
def flagReset : Byte := 0x08#8

/-- `FRAME_START`, the frame-start byte (00_scope.md R6). -/
def frameStartByte : Byte := 0x81#8

/-- `CMD_READ` (00_scope.md R6). -/
def cmdReadByte : Byte := 0x52#8

/-- `CMD_WRITE` (00_scope.md R6). -/
def cmdWriteByte : Byte := 0x57#8

/-- `CMD_IDENTIFY` (00_scope.md R6). -/
def cmdIdentifyByte : Byte := 0x53#8

/-- `ID1`, the first byte of the memory card ID tag (00_scope.md R6). -/
def id1 : Byte := 0x5A#8

/-- `ID2`, the second byte of the memory card ID tag (00_scope.md R6). -/
def id2 : Byte := 0x5D#8

/-- `CACK1`, the first byte of the command acknowledge tag (00_scope.md R6). -/
def cack1 : Byte := 0x5C#8

/-- `CACK2`, the second byte of the command acknowledge tag (00_scope.md R6). -/
def cack2 : Byte := 0x5D#8

/-- `ST_GOOD`, the end status of a good read or write (00_scope.md R6). -/
def stGood : Byte := 0x47#8

/-- `ST_BAD_CHECKSUM`, the end status of a write with a bad checksum (00_scope.md R6). -/
def stBadChecksum : Byte := 0x4E#8

/-- `ST_BAD_SECTOR`, the end status of a write to an out-of-range sector (00_scope.md R6). -/
def stBadSector : Byte := 0xFF#8

/-- `ABSENT_SUBST`, the byte used in place of an absent input (00_scope.md R6). -/
def absentSubst : Byte := 0xFF#8

/-- `IDENT_PAYLOAD`, byte 0 (00_scope.md R6). -/
def identPayload0 : Byte := 0x04#8

/-- `IDENT_PAYLOAD`, byte 1 (00_scope.md R6). -/
def identPayload1 : Byte := 0x00#8

/-- `IDENT_PAYLOAD`, byte 2 (00_scope.md R6). -/
def identPayload2 : Byte := 0x00#8

/-- `IDENT_PAYLOAD`, byte 3 (00_scope.md R6). -/
def identPayload3 : Byte := 0x80#8

/-- The field `op`, bits 10:9 of an operation word (30_encoding.md R71). -/
def opField (w : OpWord) : BitVec 2 := w.extractLsb' 9 2

/-- Bits 8:0 of an operation word: `V` and `B` (30_encoding.md R71). -/
def lowField (w : OpWord) : BitVec 9 := w.extractLsb' 0 9

/-- The tri-state byte of a TRANSFER word: `V` is bit 8, and the bits `B` of an absent byte are ignored
(30_encoding.md R72). -/
def triField (w : OpWord) : Tri :=
  if w.getLsbD 8 then .byte (w.extractLsb' 0 8) else .z

/-- The operation word of a TRANSFER: `XFER 0xNN` is 0x100 + 0xNN, `XFER Z` is 0x000 (30_encoding.md R91). -/
def xferWord : Tri → OpWord
  | .z => 0x000#11
  | .byte b => 0b001#3 ++ b

/-- `PON` (30_encoding.md R91). -/
def powerOnWord : OpWord := 0x200#11

/-- `POFF` (30_encoding.md R91). -/
def powerOffWord : OpWord := 0x400#11

/-- The reserved operation words: `op` = 11, and POWER words whose bits 8:0 are not all 0 (30_encoding.md R88). -/
def isReservedWord (w : OpWord) : Bool :=
  opField w == 0b11#2 || ((opField w == 0b01#2 || opField w == 0b10#2) && lowField w != 0#9)

/-- The outputs of one operation (10_state.md R32): `ack` and `data_out` of a TRANSFER, `result` of a power operation,
the byte a view read returns (20_memory.md R64). -/
inductive Response where
  | transfer (ack : Bool) (data : Tri)
  | power (result : Bool)
  | viewed (b : Byte)
deriving DecidableEq, Repr

/-- The 10-bit response word of the operation port: `ACK, DV, D` with `D` = 0x00 for `Z` (30_encoding.md R73), and
`RES, 0, 0x00` for a power operation (R74). A view operation gives none: it is not on that port. -/
def responseWord : Response → Option RespWord
  | .transfer ack .z => some (BitVec.ofBool ack ++ 0#9)
  | .transfer ack (.byte b) => some (BitVec.ofBool ack ++ (1#1 ++ b))
  | .power result => some (BitVec.ofBool result ++ 0#9)
  | .viewed _ => none

end Sys2Proof.Machine
end

