-- ==== Sys2Proof/Syntax.lean ====
section
/-!
DEFINITION. The instructions: one constructor for each row of spec/opcode_table.json, in the table's order, and the view
operations of the storage port (20_memory.md R64), which are no rows of the table.
An operand `cmd` is the tri-state input of the TRANSFER (fields V and B of the row).
-/

namespace Sys2Proof

/-- One operation of the block, as the row of spec/opcode_table.json that gives it its rule. -/
inductive Instr where
  /-- POWER_ON, 40_power_and_transfer.md R100 -/
  | powerOn
  /-- POWER_OFF, 40_power_and_transfer.md R101 -/
  | powerOff
  /-- RESERVED_OP11, 30_encoding.md R88: the reserved word itself -/
  | reservedOp11 (word : OpWord)
  /-- XFER_UNPOWERED, 40_power_and_transfer.md R102 -/
  | xferUnpowered (cmd : Tri)
  /-- FRAME_START, 41_command_dispatch.md R120 -/
  | frameStart
  /-- IDLE_IGNORE, 41_command_dispatch.md R121 -/
  | idleIgnore (cmd : Tri)
  /-- CMD_READ, 41_command_dispatch.md R122 -/
  | cmdRead
  /-- CMD_WRITE, 41_command_dispatch.md R123 -/
  | cmdWrite
  /-- CMD_IDENTIFY, 41_command_dispatch.md R124 -/
  | cmdIdentify
  /-- CMD_REJECT, 41_command_dispatch.md R125 -/
  | cmdReject (cmd : Tri)
  /-- READ_ID0, 42_read_sector.md R140 -/
  | readId0 (cmd : Tri)
  /-- READ_ID1, 42_read_sector.md R141 -/
  | readId1 (cmd : Tri)
  /-- READ_ADDR_MSB, 42_read_sector.md R142 -/
  | readAddrMsb (cmd : Tri)
  /-- READ_ADDR_LSB, 42_read_sector.md R143 -/
  | readAddrLsb (cmd : Tri)
  /-- READ_ACK0, 42_read_sector.md R145 -/
  | readAck0 (cmd : Tri)
  /-- READ_ACK1, 42_read_sector.md R146 -/
  | readAck1 (cmd : Tri)
  /-- READ_ECHO_MSB, 42_read_sector.md R147 -/
  | readEchoMsb (cmd : Tri)
  /-- READ_ECHO_LSB, 42_read_sector.md R148 -/
  | readEchoLsb (cmd : Tri)
  /-- READ_DATA, 42_read_sector.md R149 -/
  | readData (cmd : Tri)
  /-- READ_CHECKSUM, 42_read_sector.md R150 -/
  | readChecksum (cmd : Tri)
  /-- READ_STATUS, 42_read_sector.md R151 -/
  | readStatus (cmd : Tri)
  /-- WRITE_ID0, 43_write_sector.md R170 -/
  | writeId0 (cmd : Tri)
  /-- WRITE_ID1, 43_write_sector.md R171 -/
  | writeId1 (cmd : Tri)
  /-- WRITE_ADDR_MSB, 43_write_sector.md R172 -/
  | writeAddrMsb (cmd : Tri)
  /-- WRITE_ADDR_LSB, 43_write_sector.md R173 -/
  | writeAddrLsb (cmd : Tri)
  /-- WRITE_DATA, 43_write_sector.md R177 -/
  | writeData (cmd : Tri)
  /-- WRITE_CHECKSUM, 43_write_sector.md R178 -/
  | writeChecksum (cmd : Tri)
  /-- WRITE_ACK0, 43_write_sector.md R179 -/
  | writeAck0 (cmd : Tri)
  /-- WRITE_ACK1, 43_write_sector.md R180 -/
  | writeAck1 (cmd : Tri)
  /-- WRITE_STATUS, 43_write_sector.md R181 -/
  | writeStatus (cmd : Tri)
  /-- IDENT_STEP0, 44_identify.md R200 -/
  | identStep0 (cmd : Tri)
  /-- IDENT_STEP1, 44_identify.md R201 -/
  | identStep1 (cmd : Tri)
  /-- IDENT_STEP2, 44_identify.md R202 -/
  | identStep2 (cmd : Tri)
  /-- IDENT_STEP3, 44_identify.md R203 -/
  | identStep3 (cmd : Tri)
  /-- IDENT_STEP4, 44_identify.md R204 -/
  | identStep4 (cmd : Tri)
  /-- IDENT_STEP5, 44_identify.md R205 -/
  | identStep5 (cmd : Tri)
  /-- IDENT_STEP6, 44_identify.md R206 -/
  | identStep6 (cmd : Tri)
  /-- IDENT_STEP7, 44_identify.md R207 -/
  | identStep7 (cmd : Tri)
deriving DecidableEq, Repr

/-- The four operations of the host's direct storage port, with the operand widths of 20_memory.md R64. -/
inductive View where
  | readSector (n : BitVec 10) (i : BitVec 7)
  | writeSector (n : BitVec 10) (i : BitVec 7) (v : Byte)
  | readBlock (b : BitVec 4) (j : BitVec 13)
  | writeBlock (b : BitVec 4) (j : BitVec 13) (v : Byte)
deriving DecidableEq, Repr

/-- What the host can issue: an operation word on the operation port (30_encoding.md R70) or a view operation on the
storage port (20_memory.md R64); both stand in one serial order (R60). -/
inductive Request where
  | op (word : OpWord)
  | view (v : View)
deriving DecidableEq, Repr

end Sys2Proof
end

