-- ==== Sys2Proof/WellFormed.lean ====
section
/-!
DEFINITION. Which operands a row of the opcode table admits: the "except" words of the table's catch-all rows and the
reserved words of 30_encoding.md R88. Every other row admits every tri-state byte.
-/

namespace Sys2Proof

open Machine

/-- The row admits its operands (spec/opcode_table.json, "except"; 30_encoding.md R88). -/
def WellFormed : Instr → Bool
  | .reservedOp11 w => isReservedWord w
  | .idleIgnore cmd => cmd != .byte frameStartByte
  | .cmdReject cmd => cmd != .byte cmdReadByte && cmd != .byte cmdWriteByte && cmd != .byte cmdIdentifyByte
  | .powerOn | .powerOff | .frameStart | .cmdRead | .cmdWrite | .cmdIdentify => true
  | .xferUnpowered _ => true
  | .readId0 _ | .readId1 _ | .readAddrMsb _ | .readAddrLsb _ | .readAck0 _ | .readAck1 _ => true
  | .readEchoMsb _ | .readEchoLsb _ | .readData _ | .readChecksum _ | .readStatus _ => true
  | .writeId0 _ | .writeId1 _ | .writeAddrMsb _ | .writeAddrLsb _ | .writeData _ => true
  | .writeChecksum _ | .writeAck0 _ | .writeAck1 _ | .writeStatus _ => true
  | .identStep0 _ | .identStep1 _ | .identStep2 _ | .identStep3 _ => true
  | .identStep4 _ | .identStep5 _ | .identStep6 _ | .identStep7 _ => true

end Sys2Proof
end

