-- ==== Sys2Proof/Decode.lean ====
section
/-!
DEFINITION. The decoder and the encoder. A word's row depends on the power state (40_power_and_transfer.md R102, R103)
and on `pstate`, which is the only other decoding context (30_encoding.md R83, R90).
-/

namespace Sys2Proof

open Machine

/-- The decoding context: the power state and the protocol state (30_encoding.md R83, 40_power_and_transfer.md R102). -/
structure Context where
  poweredOn : Bool
  pstate : PState
deriving DecidableEq, Repr

/-- Why a word has no row: the card is powered and its protocol state is an illegal encoding
(40_power_and_transfer.md R103, 70_reset_and_hazards.md R276). -/
inductive DecodeError where
  | illegalState (p : PState)
deriving DecidableEq, Repr

/-- The row of a TRANSFER in `IDLE` (41_command_dispatch.md R120, R121). -/
def idleRow (cmd : Tri) : Instr :=
  if cmd = .byte frameStartByte then .frameStart else .idleIgnore cmd

/-- The row of a TRANSFER in `AWAIT_CMD` (41_command_dispatch.md R122 to R125). -/
def awaitRow (cmd : Tri) : Instr :=
  if cmd = .byte cmdReadByte then .cmdRead
  else if cmd = .byte cmdWriteByte then .cmdWrite
  else if cmd = .byte cmdIdentifyByte then .cmdIdentify
  else .cmdReject cmd

/-- The row of a TRANSFER in `READ(s)` (40_power_and_transfer.md R103, 42_read_sector.md). -/
def readRow (s : BitVec 8) (cmd : Tri) : Option Instr :=
  if s = 0 then some (.readId0 cmd)
  else if s = 1 then some (.readId1 cmd)
  else if s = 2 then some (.readAddrMsb cmd)
  else if s = 3 then some (.readAddrLsb cmd)
  else if s = 4 then some (.readAck0 cmd)
  else if s = 5 then some (.readAck1 cmd)
  else if s = 6 then some (.readEchoMsb cmd)
  else if s = 7 then some (.readEchoLsb cmd)
  else if s.toNat ≤ 135 then some (.readData cmd)
  else if s = 136 then some (.readChecksum cmd)
  else if s = 137 then some (.readStatus cmd)
  else none

/-- The row of a TRANSFER in `WRITE(s)` (40_power_and_transfer.md R103, 43_write_sector.md). -/
def writeRow (s : BitVec 8) (cmd : Tri) : Option Instr :=
  if s = 0 then some (.writeId0 cmd)
  else if s = 1 then some (.writeId1 cmd)
  else if s = 2 then some (.writeAddrMsb cmd)
  else if s = 3 then some (.writeAddrLsb cmd)
  else if s.toNat ≤ 131 then some (.writeData cmd)
  else if s = 132 then some (.writeChecksum cmd)
  else if s = 133 then some (.writeAck0 cmd)
  else if s = 134 then some (.writeAck1 cmd)
  else if s = 135 then some (.writeStatus cmd)
  else none

/-- The row of a TRANSFER in `IDENT(s)` (40_power_and_transfer.md R103, 44_identify.md). -/
def identRow (s : BitVec 8) (cmd : Tri) : Option Instr :=
  if s = 0 then some (.identStep0 cmd)
  else if s = 1 then some (.identStep1 cmd)
  else if s = 2 then some (.identStep2 cmd)
  else if s = 3 then some (.identStep3 cmd)
  else if s = 4 then some (.identStep4 cmd)
  else if s = 5 then some (.identStep5 cmd)
  else if s = 6 then some (.identStep6 cmd)
  else if s = 7 then some (.identStep7 cmd)
  else none

/-- The row of a powered TRANSFER, by `pstate`; none for an illegal encoding (40_power_and_transfer.md R103). -/
def poweredRow (p : PState) (cmd : Tri) : Option Instr :=
  if p = PState.idle then some (idleRow cmd)
  else if p = PState.awaitCmd then some (awaitRow cmd)
  else if p.tag = 0b010#3 then readRow p.step cmd
  else if p.tag = 0b011#3 then writeRow p.step cmd
  else if p.tag = 0b100#3 then identRow p.step cmd
  else none

/-- The row of a TRANSFER word: the power state is looked at first (60_exceptions.md R222). -/
def transferRow (c : Context) (cmd : Tri) : Except DecodeError Instr :=
  if c.poweredOn then
    match poweredRow c.pstate cmd with
    | some i => .ok i
    | none => .error (.illegalState c.pstate)
  else .ok (.xferUnpowered cmd)

/-- The row an operation word selects in a context (30_encoding.md R71, R83, R88). -/
def decode (c : Context) (w : OpWord) : Except DecodeError Instr :=
  if isReservedWord w then .ok (.reservedOp11 w)
  else if opField w = 0b01#2 then .ok .powerOn
  else if opField w = 0b10#2 then .ok .powerOff
  else transferRow c (triField w)

/-- The operation word of an instruction (30_encoding.md R71, R91; spec/opcode_table.json "match", "V", "B"). -/
def encode : Instr → OpWord
  | .powerOn => powerOnWord
  | .powerOff => powerOffWord
  | .reservedOp11 w => w
  | .frameStart => xferWord (.byte frameStartByte)
  | .cmdRead => xferWord (.byte cmdReadByte)
  | .cmdWrite => xferWord (.byte cmdWriteByte)
  | .cmdIdentify => xferWord (.byte cmdIdentifyByte)
  | .xferUnpowered cmd | .idleIgnore cmd | .cmdReject cmd => xferWord cmd
  | .readId0 cmd | .readId1 cmd | .readAddrMsb cmd | .readAddrLsb cmd => xferWord cmd
  | .readAck0 cmd | .readAck1 cmd | .readEchoMsb cmd | .readEchoLsb cmd => xferWord cmd
  | .readData cmd | .readChecksum cmd | .readStatus cmd => xferWord cmd
  | .writeId0 cmd | .writeId1 cmd | .writeAddrMsb cmd | .writeAddrLsb cmd => xferWord cmd
  | .writeData cmd | .writeChecksum cmd | .writeAck0 cmd | .writeAck1 cmd | .writeStatus cmd => xferWord cmd
  | .identStep0 cmd | .identStep1 cmd | .identStep2 cmd | .identStep3 cmd => xferWord cmd
  | .identStep4 cmd | .identStep5 cmd | .identStep6 cmd | .identStep7 cmd => xferWord cmd

/-- The "state" key of the row in spec/opcode_table.json: the contexts the row's rule runs in
(40_power_and_transfer.md R102, R103). The POWER and RESERVED rows run in every context. -/
def selectedIn (c : Context) : Instr → Bool
  | .powerOn | .powerOff | .reservedOp11 _ => true
  | .xferUnpowered _ => !c.poweredOn
  | .frameStart | .idleIgnore _ => c.poweredOn && c.pstate == PState.idle
  | .cmdRead | .cmdWrite | .cmdIdentify | .cmdReject _ => c.poweredOn && c.pstate == PState.awaitCmd
  | .readId0 _ => c.poweredOn && c.pstate == PState.read 0
  | .readId1 _ => c.poweredOn && c.pstate == PState.read 1
  | .readAddrMsb _ => c.poweredOn && c.pstate == PState.read 2
  | .readAddrLsb _ => c.poweredOn && c.pstate == PState.read 3
  | .readAck0 _ => c.poweredOn && c.pstate == PState.read 4
  | .readAck1 _ => c.poweredOn && c.pstate == PState.read 5
  | .readEchoMsb _ => c.poweredOn && c.pstate == PState.read 6
  | .readEchoLsb _ => c.poweredOn && c.pstate == PState.read 7
  | .readData _ => c.poweredOn && c.pstate.tag == 0b010#3 && c.pstate.stepIn 8 135
  | .readChecksum _ => c.poweredOn && c.pstate == PState.read 136
  | .readStatus _ => c.poweredOn && c.pstate == PState.read 137
  | .writeId0 _ => c.poweredOn && c.pstate == PState.write 0
  | .writeId1 _ => c.poweredOn && c.pstate == PState.write 1
  | .writeAddrMsb _ => c.poweredOn && c.pstate == PState.write 2
  | .writeAddrLsb _ => c.poweredOn && c.pstate == PState.write 3
  | .writeData _ => c.poweredOn && c.pstate.tag == 0b011#3 && c.pstate.stepIn 4 131
  | .writeChecksum _ => c.poweredOn && c.pstate == PState.write 132
  | .writeAck0 _ => c.poweredOn && c.pstate == PState.write 133
  | .writeAck1 _ => c.poweredOn && c.pstate == PState.write 134
  | .writeStatus _ => c.poweredOn && c.pstate == PState.write 135
  | .identStep0 _ => c.poweredOn && c.pstate == PState.ident 0
  | .identStep1 _ => c.poweredOn && c.pstate == PState.ident 1
  | .identStep2 _ => c.poweredOn && c.pstate == PState.ident 2
  | .identStep3 _ => c.poweredOn && c.pstate == PState.ident 3
  | .identStep4 _ => c.poweredOn && c.pstate == PState.ident 4
  | .identStep5 _ => c.poweredOn && c.pstate == PState.ident 5
  | .identStep6 _ => c.poweredOn && c.pstate == PState.ident 6
  | .identStep7 _ => c.poweredOn && c.pstate == PState.ident 7

/-- A context in which a bare word is read, for the host's questions about table rows (log 9). The words that one
row of the table fixes bit for bit are read in that row's state; every other word as the card stands after creation. -/
def tableContext (w : OpWord) : Context :=
  if w = 0x181#11 then ⟨true, PState.idle⟩
  else if w = 0x152#11 ∨ w = 0x153#11 ∨ w = 0x157#11 then ⟨true, PState.awaitCmd⟩
  else ⟨false, PState.idle⟩

/-- The instruction the decoder reads from the bits `w` of a table row, in the context `tableContext` gives the word;
none where the decoder refuses, or where `w` is wider than an operation word (30_encoding.md R71). -/
def decodeTableWord (_nbits w : Nat) : Option Instr :=
  if w < 2048 then
    match decode (tableContext (BitVec.ofNat 11 w)) (BitVec.ofNat 11 w) with
    | .ok i => some i
    | .error _ => none
  else none

end Sys2Proof
end

