-- ==== Sys2Proof/Config.lean ====
section
/-!
DEFINITION. The block's fixed sizes (00_scope.md R6) and its open parameter WRITE_COMMIT (R7).
-/

namespace Sys2Proof.Config

/-- Bytes of the backing store, `CARD_SIZE` (00_scope.md R6). -/
def cardSize : Nat := 131072

/-- Bytes of a sector, `SECTOR_SIZE` (00_scope.md R6). -/
def sectorSize : Nat := 128

/-- Bytes of a block, `BLOCK_SIZE` (00_scope.md R6). -/
def blockSize : Nat := 8192

/-- Sectors of a block, `SECTORS_PER_BLOCK` (00_scope.md R6). -/
def sectorsPerBlock : Nat := 64

/-- Blocks of a card, `BLOCK_COUNT` (00_scope.md R6). -/
def blockCount : Nat := 16

/-- The open parameter `WRITE_COMMIT`: when the data of a write reaches the store (00_scope.md R7,
43_write_sector.md R182). -/
inductive WriteCommit where
  /-- each byte at its own data step -/
  | perByte
  /-- all 128 bytes at write step 131 -/
  | afterData
  /-- all 128 bytes at write step 135 -/
  | atEnd
deriving DecidableEq, Repr

/-- The default of `WRITE_COMMIT` (00_scope.md R7). -/
def defaultCommit : WriteCommit := .perByte

end Sys2Proof.Config
end

