-- ==== Sys2Proof/Machine/State.lean ====
section
/-!
DEFINITION. The state of the card (10_state.md R20), the reasons a step can stop, and the state at creation
(70_reset_and_hazards.md R270).
-/

namespace Sys2Proof.Machine

/-- The backing store as (offset, byte) cells: offsets strictly rising, no cell holding the byte an unlisted offset
reads as (Machine/Ops.lean). -/
abbrev Memory := List Host.Cell

/-- Everything the block holds (10_state.md R20), the open parameter WRITE_COMMIT (00_scope.md R7), and the two sides of
its ports: the operations the host has issued and the outputs of the last one (30_encoding.md R70, 20_memory.md R64). -/
structure State where
  /-- 1 when the card is powered (10_state.md R21) -/
  poweredOn : Bool
  /-- the status byte returned in the command transfer (10_state.md R22) -/
  flag : Byte
  /-- the protocol state (10_state.md R23, R24) -/
  pstate : PState
  /-- the decoded sector number, or `POISON` (10_state.md R26) -/
  address : BitVec 16
  /-- the running XOR (10_state.md R27) -/
  checksum : Byte
  /-- the index of the next data byte (10_state.md R28) -/
  byteCounter : BitVec 8
  /-- the backing store (10_state.md R29) -/
  storage : Memory
  /-- the write buffer, used under `AFTER_DATA` and `AT_END` only (10_state.md R20, 43_write_sector.md R182) -/
  wbuf : Vector Byte 128
  /-- the open parameter `WRITE_COMMIT`, fixed for a card (00_scope.md R7); log 5 -/
  writeCommit : Config.WriteCommit
  /-- the model's own: the operations the host has issued and the card has not yet taken, oldest first; log 6 -/
  pending : List Request
  /-- the model's own: the outputs of the last operation (10_state.md R32); log 7 -/
  response : Option Response
deriving DecidableEq, Repr

/-- Why the model stops in a state the rules never reach (00_scope.md R8, `raise`). -/
inductive Fault where
  /-- A TRANSFER met a powered card whose `pstate` is an illegal encoding: raised by the step, as
  70_reset_and_hazards.md R276 asks. Safe: no next state is picked. -/
  | illegalState (p : PState)
  /-- A store access outside offsets 0 to 131071 (20_memory.md R51): raised by `memRead`, `memWrite` and `commitBuffer`, in
  states no run from creation reaches. Safe: no value is picked. -/
  | storeOffset (offset : Nat)
  /-- A write-buffer access at index 128 or more (10_state.md R20): raised by `bufferByte`, in states no run from creation
  reaches. Safe: no value is picked. -/
  | bufferIndex (index : Nat)
deriving DecidableEq, Repr

/-- Why the model gives an input no meaning (00_scope.md R8, `refuse`). -/
inductive Refusal where
  /-- An instruction without a meaning: raised by no arm of `exec`. Safe. -/
  | notModelled (mnemonic : String)
  /-- A reserved operation word (30_encoding.md R88): raised by the meaning of RESERVED_OP11. Safe. -/
  | reservedOperation (word : OpWord)
  /-- A TRANSFER row applied where the power state, `pstate` or the input select another row (40_power_and_transfer.md
  R103): raised by the meaning of a TRANSFER row. The step never raises it, because the decoder selects the row. Safe. -/
  | rowNotSelected
  /-- A view operation during an open frame (20_memory.md R64): raised by the view operations. Safe. -/
  | viewDuringFrame
  /-- `INIT_STORAGE` of a length other than 131072 (70_reset_and_hazards.md R270): raised by `State.create`. Safe. -/
  | initStorageLength (length : Nat)
  /-- A slot sector index of 0x10000 or more (60_exceptions.md R249): raised by the slot routines. Safe. -/
  | sectorIndex (n : Nat)
deriving DecidableEq, Repr

/-- The outcome of one operation. -/
abbrev Result := Host.Outcome State Fault Refusal

/-- The card right after creation with the default parameters: `INIT_STORAGE` all zero, `WRITE_COMMIT` = `PER_BYTE`
(70_reset_and_hazards.md R270, 10_state.md R35, 00_scope.md R7). The host has issued nothing yet. -/
def State.reset : State where
  poweredOn := false
  flag := flagReset
  pstate := PState.idle
  address := 0x0000#16
  checksum := 0x00#8
  byteCounter := 0x00#8
  storage := []
  wbuf := Vector.replicate 128 0x00#8
  writeCommit := Config.defaultCommit
  pending := []
  response := none

end Sys2Proof.Machine
end

