-- ==== Sys2Proof/Machine/Ops.lean ====
section
/-!
DEFINITION. The named operations over the state: one update per field, the store primitives (20_memory.md R51), the
write buffer, the response, the guard of a row, and taking the next operation from the host.
The block has no exception, trap or interrupt, no saved state, no entry and no return (60_exceptions.md R220, R223,
R224), so no operation here takes or leaves an exception: every error is a response (R221).
-/

namespace Sys2Proof.Machine

/-! ### One update per field -/

def State.setPoweredOn (s : State) (v : Bool) : State := { s with poweredOn := v }
def State.setFlag (s : State) (v : Byte) : State := { s with flag := v }
def State.setPstate (s : State) (v : PState) : State := { s with pstate := v }
def State.setAddress (s : State) (v : BitVec 16) : State := { s with address := v }
def State.setChecksum (s : State) (v : Byte) : State := { s with checksum := v }
def State.setByteCounter (s : State) (v : BitVec 8) : State := { s with byteCounter := v }
def State.setStorage (s : State) (v : Memory) : State := { s with storage := v }
def State.setWbuf (s : State) (v : Vector Byte 128) : State := { s with wbuf := v }
def State.setPending (s : State) (v : List Request) : State := { s with pending := v }
def State.setResponse (s : State) (v : Option Response) : State := { s with response := v }

/-- The decoding context of a state (30_encoding.md R83). -/
abbrev State.context (s : State) : Context := ⟨s.poweredOn, s.pstate⟩

/-- The `powered` output: always equal to `powered_on` (10_state.md R32, 30_encoding.md R70). -/
def State.powered (s : State) : Bool := s.poweredOn

/-! ### The backing store -/

/-- What an offset that is not listed reads as: the all-zero `INIT_STORAGE` (00_scope.md R7). -/
def unlisted : Byte := 0x00#8

/-- The byte at an offset: its cell's, or `unlisted`. -/
def Memory.read : Memory → Nat → Byte
  | [], _ => unlisted
  | (a, v) :: m, k => if a = k then v else Memory.read m k

/-- The store with one byte replaced, in the same canonical form. -/
def Memory.write : Memory → Nat → Byte → Memory
  | [], k, v => if v = unlisted then [] else [(k, v)]
  | (a, w) :: m, k, v =>
    if k < a then (if v = unlisted then (a, w) :: m else (k, v) :: (a, w) :: m)
    else if k = a then (if v = unlisted then m else (k, v) :: m)
    else (a, w) :: Memory.write m k v

/-- The store with a run of bytes written at rising offsets. -/
def Memory.writeRun : Memory → Nat → List Byte → Memory
  | m, _, [] => m
  | m, k, v :: vs => Memory.writeRun (m.write k v) (k + 1) vs

/-- The canonical form: offsets strictly rising, each inside the store, and no cell equal to what an unlisted offset
reads as. -/
def Memory.wf (m : Memory) : Bool :=
  decide (m.Pairwise fun c d => c.1 < d.1) && m.all fun c => decide (c.1 < Config.cardSize) && c.2 != unlisted

/-- The cells of a byte array laid at rising offsets. -/
def Memory.ofBytes : Nat → List Byte → Memory
  | _, [] => []
  | k, v :: vs => if v = unlisted then Memory.ofBytes (k + 1) vs else (k, v) :: Memory.ofBytes (k + 1) vs

/-- `MemRead(addr, 1)` (20_memory.md R51): the byte goes on to `f`. Outside the store the model faults (log 10). -/
def memRead (s : State) (k : Nat) (f : Byte → Result) : Result :=
  if k < Config.cardSize then f (s.storage.read k) else .fault (.storeOffset k)

/-- `MemWrite(addr, 1, v)` (20_memory.md R51). Outside the store the model faults (log 10). -/
def memWrite (s : State) (k : Nat) (v : Byte) : Result :=
  if k < Config.cardSize then .next (s.setStorage (s.storage.write k v)) else .fault (.storeOffset k)

/-- `wbuf[i] <- v` (43_write_sector.md R177). At index 128 or more the model faults (log 11). -/
def bufferByte (s : State) (i : Nat) (v : Byte) : Result :=
  if i < Config.sectorSize then .next (s.setWbuf (s.wbuf.setIfInBounds i v)) else .fault (.bufferIndex i)

/-- `for j in 0..127: MemWrite(base + j, 1, wbuf[j])` (43_write_sector.md R177, R181). Where a byte of the run lies
outside the store the model faults (log 10). -/
def commitBuffer (s : State) (base : Nat) : Result :=
  if base + Config.sectorSize ≤ Config.cardSize then .next (s.setStorage (s.storage.writeRun base s.wbuf.toList))
  else .fault (.storeOffset (base + Config.sectorSize))

/-! ### Sequencing, guards, responses -/

/-- First one part of a rule, then the next (00_scope.md R8, `;`); a stop of the first stops the whole. -/
def andThen (r : Result) (f : State → Result) : Result :=
  match r with
  | .next s => f s
  | .fault e => .fault e
  | .refused e => .refused e

/-- The rule of a TRANSFER row, where the row is the one selected (40_power_and_transfer.md R103; log 9). -/
def whenRow (selected : Prop) [Decidable selected] (r : Result) : Result :=
  if selected then r else .refused .rowNotSelected

/-- `respond(ack, data)`, the end of every TRANSFER rule (00_scope.md R8). -/
def respond (ack : Bool) (data : Tri) (s : State) : Result := .next (s.setResponse (some (.transfer ack data)))

/-- The end of a POWER rule: the boolean it returns (40_power_and_transfer.md R100, R101). -/
def giveResult (result : Bool) (s : State) : Result := .next (s.setResponse (some (.power result)))

/-- `pstate <- p ; respond(ack, data)`: the whole of a rule that only moves on and answers. -/
def moveOn (p : PState) (ack : Bool) (data : Tri) (s : State) : Result := respond ack data (s.setPstate p)

/-! ### Taking the next operation -/

/-- The oldest operation the host has issued, and the state without it (30_encoding.md R70, 20_memory.md R60). -/
def nextRequest (s : State) : Option (Request × State) :=
  match s.pending with
  | [] => none
  | r :: rest => some (r, s.setPending rest)

end Sys2Proof.Machine
end

