-- ==== Sys2Proof/Machine/Command.lean ====
section
/-!
DEFINITION. The `command_state_machine`: a powered TRANSFER in `IDLE` or `AWAIT_CMD` (41_command_dispatch.md).
-/

namespace Sys2Proof.Machine

/-- FRAME_START (41_command_dispatch.md R120). -/
def execFrameStart (s : State) : Result :=
  whenRow (s.poweredOn = true ∧ s.pstate = PState.idle) (moveOn PState.awaitCmd true .z s)

/-- IDLE_IGNORE: any input but `0x81` (41_command_dispatch.md R121). -/
def execIdleIgnore (cmd : Tri) (s : State) : Result :=
  whenRow (s.poweredOn = true ∧ s.pstate = PState.idle ∧ cmd ≠ .byte frameStartByte) (respond false .z s)

/-- CMD_READ (41_command_dispatch.md R122). -/
def execCmdRead (s : State) : Result :=
  whenRow (s.poweredOn = true ∧ s.pstate = PState.awaitCmd) (moveOn (PState.read 0) true (.byte s.flag) s)

/-- CMD_WRITE (41_command_dispatch.md R123). -/
def execCmdWrite (s : State) : Result :=
  whenRow (s.poweredOn = true ∧ s.pstate = PState.awaitCmd) (moveOn (PState.write 0) true (.byte s.flag) s)

/-- CMD_IDENTIFY (41_command_dispatch.md R124). -/
def execCmdIdentify (s : State) : Result :=
  whenRow (s.poweredOn = true ∧ s.pstate = PState.awaitCmd) (moveOn (PState.ident 0) true (.byte s.flag) s)

/-- CMD_REJECT: any input but `0x52`, `0x53`, `0x57` (41_command_dispatch.md R125). -/
def execCmdReject (cmd : Tri) (s : State) : Result :=
  whenRow (s.poweredOn = true ∧ s.pstate = PState.awaitCmd ∧ cmd ≠ .byte cmdReadByte ∧ cmd ≠ .byte cmdWriteByte ∧
      cmd ≠ .byte cmdIdentifyByte)
    (moveOn PState.idle false (.byte s.flag) s)

end Sys2Proof.Machine
end

