-- ==== Sys2Proof/Machine/Identify.lean ====
section
/-!
DEFINITION. The identify sub-sequence: a powered TRANSFER in `IDENT(s)` (44_identify.md).
-/

namespace Sys2Proof.Machine

/-- IDENT_STEP0 (44_identify.md R200). -/
def execIdentStep0 (_cmd : Tri) (s : State) : Result :=
  whenRow (s.poweredOn = true ∧ s.pstate = PState.ident 0) (moveOn (PState.ident 1) true (.byte id1) s)

/-- IDENT_STEP1 (44_identify.md R201). -/
def execIdentStep1 (_cmd : Tri) (s : State) : Result :=
  whenRow (s.poweredOn = true ∧ s.pstate = PState.ident 1) (moveOn (PState.ident 2) true (.byte id2) s)

/-- IDENT_STEP2 (44_identify.md R202). -/
def execIdentStep2 (_cmd : Tri) (s : State) : Result :=
  whenRow (s.poweredOn = true ∧ s.pstate = PState.ident 2) (moveOn (PState.ident 3) true (.byte cack1) s)

/-- IDENT_STEP3 (44_identify.md R203). -/
def execIdentStep3 (_cmd : Tri) (s : State) : Result :=
  whenRow (s.poweredOn = true ∧ s.pstate = PState.ident 3) (moveOn (PState.ident 4) true (.byte cack2) s)

/-- IDENT_STEP4 (44_identify.md R204). -/
def execIdentStep4 (_cmd : Tri) (s : State) : Result :=
  whenRow (s.poweredOn = true ∧ s.pstate = PState.ident 4) (moveOn (PState.ident 5) true (.byte identPayload0) s)

/-- IDENT_STEP5 (44_identify.md R205). -/
def execIdentStep5 (_cmd : Tri) (s : State) : Result :=
  whenRow (s.poweredOn = true ∧ s.pstate = PState.ident 5) (moveOn (PState.ident 6) true (.byte identPayload1) s)

/-- IDENT_STEP6 (44_identify.md R206). -/
def execIdentStep6 (_cmd : Tri) (s : State) : Result :=
  whenRow (s.poweredOn = true ∧ s.pstate = PState.ident 6) (moveOn (PState.ident 7) true (.byte identPayload2) s)

/-- IDENT_STEP7 (44_identify.md R207). -/
def execIdentStep7 (_cmd : Tri) (s : State) : Result :=
  whenRow (s.poweredOn = true ∧ s.pstate = PState.ident 7) (moveOn PState.idle false (.byte identPayload3) s)

end Sys2Proof.Machine
end

