-- ==== Sys2Proof/Machine/Power.lean ====
section
/-!
DEFINITION. The power operations, the reserved words, and a TRANSFER on an unpowered card.
-/

namespace Sys2Proof.Machine

/-- POWER_ON (40_power_and_transfer.md R100). -/
def execPowerOn (s : State) : Result :=
  if s.poweredOn then giveResult false s
  else giveResult true (((s.setPoweredOn true).setFlag flagReset).setPstate PState.idle)

/-- POWER_OFF (40_power_and_transfer.md R101). -/
def execPowerOff (s : State) : Result :=
  if s.poweredOn then giveResult true (s.setPoweredOn false) else giveResult false s

/-- A reserved operation word: `refuse ReservedOperation(W)` (30_encoding.md R88). -/
def execReservedOp11 (word : OpWord) (_s : State) : Result := .refused (.reservedOperation word)

/-- XFER_UNPOWERED (40_power_and_transfer.md R102). -/
def execXferUnpowered (_cmd : Tri) (s : State) : Result := whenRow (s.poweredOn = false) (respond false .z s)

end Sys2Proof.Machine
end

