-- ==== Sys2Proof/Machine/Flags.lean ====
section
/-!
DEFINITION. The `xor_checksum_verifier` (00_scope.md R2): accumulation and the write verdict. The block has no condition
codes; its status indicators are `ack`, produced afresh by every TRANSFER, and `flag` (40_power_and_transfer.md R108).
-/

namespace Sys2Proof.Machine

/-- `checksum ^ b` (10_state.md R27). -/
def accumulate (checksum b : Byte) : Byte := checksum ^^^ b

/-- `verdict(address, checksum)`: bad sector before bad checksum before good (43_write_sector.md R176). -/
def verdict (address : BitVec 16) (checksum : Byte) : Byte :=
  if address = poison then stBadSector
  else if checksum ≠ 0x00#8 then stBadChecksum
  else stGood

end Sys2Proof.Machine
end

