-- ==== Sys2Proof/Machine/Operands.lean ====
section
/-!
DEFINITION. The operand forms: the concrete value of a tri-state input, the assembly and decode of the sector address,
and the offset of a data byte.
-/

namespace Sys2Proof.Machine

/-- `conc(t)`: the concrete value of a tri-state input, `0xFF` for an absent one (40_power_and_transfer.md R105). -/
def conc : Tri → Byte
  | .z => absentSubst
  | .byte b => b

/-- `{m, 0x00}`: the address after its MSB (42_read_sector.md R142). -/
def addressOfMsb (m : Byte) : BitVec 16 := m ++ 0x00#8

/-- `address | zext_16(l)`: the received address, MSB above LSB (30_encoding.md R80, 42_read_sector.md R143). -/
def withLsb (address : BitVec 16) (l : Byte) : BitVec 16 := address ||| l.setWidth 16

/-- `decode(raw)`: a sector number 0x000 to 0x3FF, or `POISON` (42_read_sector.md R144). -/
def decodeAddress (raw : BitVec 16) : BitVec 16 := if maxSector < raw then poison else raw

/-- `address[15:8]` (30_encoding.md R82). -/
def addressMsb (address : BitVec 16) : Byte := address.extractLsb' 8 8

/-- `address[7:0]` (30_encoding.md R82). -/
def addressLsb (address : BitVec 16) : Byte := address.extractLsb' 0 8

/-- `address * 128`: the offset of byte 0 of a sector (20_memory.md R52). -/
def sectorBase (address : BitVec 16) : Nat := address.toNat * Config.sectorSize

/-- `address * 128 + byte_counter`: the offset of the current data byte (20_memory.md R52, 42_read_sector.md R149). -/
def dataOffset (s : State) : Nat := sectorBase s.address + s.byteCounter.toNat

end Sys2Proof.Machine
end

