-- ==== Sys2Proof/Machine/ReadSector.lean ====
section
/-!
DEFINITION. The read-sector sub-sequence: a powered TRANSFER in `READ(s)` (42_read_sector.md).
-/

namespace Sys2Proof.Machine

/-- `READ(s)` or `WRITE(s)` step 2: the address MSB, kept in `address` and opening the checksum (42_read_sector.md R142,
43_write_sector.md R172). -/
def takeMsb (cmd : Tri) (s : State) : State :=
  (s.setAddress (addressOfMsb (conc cmd))).setChecksum (conc cmd)

/-- `READ(s)` or `WRITE(s)` step 3: the address LSB, the decode and the counter (42_read_sector.md R143,
43_write_sector.md R173, R174). -/
def takeLsb (cmd : Tri) (s : State) : State :=
  ((s.setChecksum (accumulate s.checksum (conc cmd))).setAddress
    (decodeAddress (withLsb s.address (conc cmd)))).setByteCounter 0

/-- READ_ID0 (42_read_sector.md R140). -/
def execReadId0 (_cmd : Tri) (s : State) : Result :=
  whenRow (s.poweredOn = true ∧ s.pstate = PState.read 0) (moveOn (PState.read 1) true (.byte id1) s)

/-- READ_ID1 (42_read_sector.md R141). -/
def execReadId1 (_cmd : Tri) (s : State) : Result :=
  whenRow (s.poweredOn = true ∧ s.pstate = PState.read 1) (moveOn (PState.read 2) true (.byte id2) s)

/-- READ_ADDR_MSB (42_read_sector.md R142). -/
def execReadAddrMsb (cmd : Tri) (s : State) : Result :=
  whenRow (s.poweredOn = true ∧ s.pstate = PState.read 2) (moveOn (PState.read 3) true (.byte 0x00) (takeMsb cmd s))

/-- READ_ADDR_LSB (42_read_sector.md R143, R144). -/
def execReadAddrLsb (cmd : Tri) (s : State) : Result :=
  whenRow (s.poweredOn = true ∧ s.pstate = PState.read 3) (moveOn (PState.read 4) true (.byte 0x00) (takeLsb cmd s))

/-- READ_ACK0 (42_read_sector.md R145). -/
def execReadAck0 (_cmd : Tri) (s : State) : Result :=
  whenRow (s.poweredOn = true ∧ s.pstate = PState.read 4) (moveOn (PState.read 5) true (.byte cack1) s)

/-- READ_ACK1 (42_read_sector.md R146). -/
def execReadAck1 (_cmd : Tri) (s : State) : Result :=
  whenRow (s.poweredOn = true ∧ s.pstate = PState.read 5) (moveOn (PState.read 6) true (.byte cack2) s)

/-- READ_ECHO_MSB (42_read_sector.md R147). -/
def execReadEchoMsb (_cmd : Tri) (s : State) : Result :=
  whenRow (s.poweredOn = true ∧ s.pstate = PState.read 6) (moveOn (PState.read 7) true (.byte (addressMsb s.address)) s)

/-- READ_ECHO_LSB: a poisoned address ends the frame (42_read_sector.md R148). -/
def execReadEchoLsb (_cmd : Tri) (s : State) : Result :=
  whenRow (s.poweredOn = true ∧ s.pstate = PState.read 7)
    (if s.address = poison then moveOn PState.idle false (.byte 0xFF) s
     else moveOn (PState.read 8) true (.byte (addressLsb s.address)) s)

/-- READ_DATA, steps 8 to 135: the byte of the store, into the checksum, and on (42_read_sector.md R149). -/
def execReadData (_cmd : Tri) (s : State) : Result :=
  whenRow (s.poweredOn = true ∧ s.pstate.tag = 0b010#3 ∧ 8 ≤ s.pstate.step.toNat ∧ s.pstate.step.toNat ≤ 135)
    (memRead s (dataOffset s) fun b =>
      moveOn (PState.read (s.pstate.step + 1)) true (.byte b)
        ((s.setChecksum (accumulate s.checksum b)).setByteCounter (s.byteCounter + 1)))

/-- READ_CHECKSUM (42_read_sector.md R150). -/
def execReadChecksum (_cmd : Tri) (s : State) : Result :=
  whenRow (s.poweredOn = true ∧ s.pstate = PState.read 136) (moveOn (PState.read 137) true (.byte s.checksum) s)

/-- READ_STATUS (42_read_sector.md R151). -/
def execReadStatus (_cmd : Tri) (s : State) : Result :=
  whenRow (s.poweredOn = true ∧ s.pstate = PState.read 137) (moveOn PState.idle false (.byte stGood) s)

end Sys2Proof.Machine
end

