-- ==== Sys2Proof/Machine/WriteSector.lean ====
section
/-!
DEFINITION. The write-sector sub-sequence: a powered TRANSFER in `WRITE(s)` (43_write_sector.md). The address steps are
those of the read (R172 to R174).
-/

namespace Sys2Proof.Machine

/-- WRITE_ID0 (43_write_sector.md R170). -/
def execWriteId0 (_cmd : Tri) (s : State) : Result :=
  whenRow (s.poweredOn = true ∧ s.pstate = PState.write 0) (moveOn (PState.write 1) true (.byte id1) s)

/-- WRITE_ID1 (43_write_sector.md R171). -/
def execWriteId1 (_cmd : Tri) (s : State) : Result :=
  whenRow (s.poweredOn = true ∧ s.pstate = PState.write 1) (moveOn (PState.write 2) true (.byte id2) s)

/-- WRITE_ADDR_MSB (43_write_sector.md R172). -/
def execWriteAddrMsb (cmd : Tri) (s : State) : Result :=
  whenRow (s.poweredOn = true ∧ s.pstate = PState.write 2) (moveOn (PState.write 3) true (.byte 0x00) (takeMsb cmd s))

/-- WRITE_ADDR_LSB (43_write_sector.md R173, R174). -/
def execWriteAddrLsb (cmd : Tri) (s : State) : Result :=
  whenRow (s.poweredOn = true ∧ s.pstate = PState.write 3) (moveOn (PState.write 4) true (.byte 0x00) (takeLsb cmd s))

/-- Where a data byte of a write goes: nowhere for a poisoned address; else to the store at once (`PER_BYTE`), or to
`wbuf`, which `AFTER_DATA` copies to the store at step 131 (43_write_sector.md R177, R182). -/
def storeDataByte (b : Byte) (s : State) : Result :=
  if s.address = poison then .next s
  else
    match s.writeCommit with
    | .perByte => memWrite s (dataOffset s) b
    | .afterData =>
      andThen (bufferByte s s.byteCounter.toNat b) fun s1 =>
        if s.pstate.step.toNat = 131 then commitBuffer s1 (sectorBase s.address) else .next s1
    | .atEnd => bufferByte s s.byteCounter.toNat b

/-- WRITE_DATA, steps 4 to 131 (43_write_sector.md R177). -/
def execWriteData (cmd : Tri) (s : State) : Result :=
  whenRow (s.poweredOn = true ∧ s.pstate.tag = 0b011#3 ∧ 4 ≤ s.pstate.step.toNat ∧ s.pstate.step.toNat ≤ 131)
    (andThen (storeDataByte (conc cmd) s) fun s1 =>
      moveOn (PState.write (s.pstate.step + 1)) true (.byte 0x00)
        ((s1.setChecksum (accumulate s.checksum (conc cmd))).setByteCounter (s.byteCounter + 1)))

/-- WRITE_CHECKSUM: the host's checksum, folded in (43_write_sector.md R178). -/
def execWriteChecksum (cmd : Tri) (s : State) : Result :=
  whenRow (s.poweredOn = true ∧ s.pstate = PState.write 132)
    (moveOn (PState.write 133) true (.byte 0x00) (s.setChecksum (accumulate s.checksum (conc cmd))))

/-- WRITE_ACK0 (43_write_sector.md R179). -/
def execWriteAck0 (_cmd : Tri) (s : State) : Result :=
  whenRow (s.poweredOn = true ∧ s.pstate = PState.write 133) (moveOn (PState.write 134) true (.byte cack1) s)

/-- WRITE_ACK1 (43_write_sector.md R180). -/
def execWriteAck1 (_cmd : Tri) (s : State) : Result :=
  whenRow (s.poweredOn = true ∧ s.pstate = PState.write 134) (moveOn (PState.write 135) true (.byte cack2) s)

/-- What `AT_END` commits at step 135: the whole buffer, for a valid sector (43_write_sector.md R181, R182). -/
def commitAtEnd (s : State) : Result :=
  if s.writeCommit = .atEnd ∧ s.address ≠ poison then commitBuffer s (sectorBase s.address) else .next s

/-- WRITE_STATUS: the end status; a bad checksum does not stop the store (43_write_sector.md R181, R183). -/
def execWriteStatus (_cmd : Tri) (s : State) : Result :=
  whenRow (s.poweredOn = true ∧ s.pstate = PState.write 135)
    (andThen (commitAtEnd s) fun s1 => moveOn PState.idle false (.byte (verdict s.address s.checksum)) s1)

end Sys2Proof.Machine
end

