-- ==== Sys2Proof/Machine/Dispatch.lean ====
section
/-!
DEFINITION. The dispatch of an instruction to its meaning: one arm per row of spec/opcode_table.json.
-/

namespace Sys2Proof.Machine

def exec (i : Instr) (s : State) : Host.Outcome State Fault Refusal :=
  match i with
  | .powerOn => Sys2Proof.Machine.execPowerOn s
  | .powerOff => Sys2Proof.Machine.execPowerOff s
  | .reservedOp11 word => Sys2Proof.Machine.execReservedOp11 word s
  | .xferUnpowered cmd => Sys2Proof.Machine.execXferUnpowered cmd s
  | .frameStart => Sys2Proof.Machine.execFrameStart s
  | .idleIgnore cmd => Sys2Proof.Machine.execIdleIgnore cmd s
  | .cmdRead => Sys2Proof.Machine.execCmdRead s
  | .cmdWrite => Sys2Proof.Machine.execCmdWrite s
  | .cmdIdentify => Sys2Proof.Machine.execCmdIdentify s
  | .cmdReject cmd => Sys2Proof.Machine.execCmdReject cmd s
  | .readId0 cmd => Sys2Proof.Machine.execReadId0 cmd s
  | .readId1 cmd => Sys2Proof.Machine.execReadId1 cmd s
  | .readAddrMsb cmd => Sys2Proof.Machine.execReadAddrMsb cmd s
  | .readAddrLsb cmd => Sys2Proof.Machine.execReadAddrLsb cmd s
  | .readAck0 cmd => Sys2Proof.Machine.execReadAck0 cmd s
  | .readAck1 cmd => Sys2Proof.Machine.execReadAck1 cmd s
  | .readEchoMsb cmd => Sys2Proof.Machine.execReadEchoMsb cmd s
  | .readEchoLsb cmd => Sys2Proof.Machine.execReadEchoLsb cmd s
  | .readData cmd => Sys2Proof.Machine.execReadData cmd s
  | .readChecksum cmd => Sys2Proof.Machine.execReadChecksum cmd s
  | .readStatus cmd => Sys2Proof.Machine.execReadStatus cmd s
  | .writeId0 cmd => Sys2Proof.Machine.execWriteId0 cmd s
  | .writeId1 cmd => Sys2Proof.Machine.execWriteId1 cmd s
  | .writeAddrMsb cmd => Sys2Proof.Machine.execWriteAddrMsb cmd s
  | .writeAddrLsb cmd => Sys2Proof.Machine.execWriteAddrLsb cmd s
  | .writeData cmd => Sys2Proof.Machine.execWriteData cmd s
  | .writeChecksum cmd => Sys2Proof.Machine.execWriteChecksum cmd s
  | .writeAck0 cmd => Sys2Proof.Machine.execWriteAck0 cmd s
  | .writeAck1 cmd => Sys2Proof.Machine.execWriteAck1 cmd s
  | .writeStatus cmd => Sys2Proof.Machine.execWriteStatus cmd s
  | .identStep0 cmd => Sys2Proof.Machine.execIdentStep0 cmd s
  | .identStep1 cmd => Sys2Proof.Machine.execIdentStep1 cmd s
  | .identStep2 cmd => Sys2Proof.Machine.execIdentStep2 cmd s
  | .identStep3 cmd => Sys2Proof.Machine.execIdentStep3 cmd s
  | .identStep4 cmd => Sys2Proof.Machine.execIdentStep4 cmd s
  | .identStep5 cmd => Sys2Proof.Machine.execIdentStep5 cmd s
  | .identStep6 cmd => Sys2Proof.Machine.execIdentStep6 cmd s
  | .identStep7 cmd => Sys2Proof.Machine.execIdentStep7 cmd s

end Sys2Proof.Machine
end

