-- ==== Sys2Proof/Machine/Views.lean ====
section
/-!
DEFINITION. The host's direct storage port (20_memory.md R64) and the creation of a card from caller data
(70_reset_and_hazards.md R270).
-/

namespace Sys2Proof.Machine

/-- A view operation is admitted only while the card is unpowered or in `IDLE` (20_memory.md R64). -/
def viewAdmitted (s : State) : Bool := !s.poweredOn || s.pstate == PState.idle

/-- Where a view operation reaches the store: sector `n` byte `i`, or block `b` byte `j` (20_memory.md R52, R53, R64). -/
def viewOffset : View → Nat
  | .readSector n i => n.toNat * Config.sectorSize + i.toNat
  | .writeSector n i _ => n.toNat * Config.sectorSize + i.toNat
  | .readBlock b j => b.toNat * Config.blockSize + j.toNat
  | .writeBlock b j _ => b.toNat * Config.blockSize + j.toNat

/-- A view read: the byte is its output (20_memory.md R64). -/
def viewRead (k : Nat) (s : State) : Result := memRead s k fun b => .next (s.setResponse (some (.viewed b)))

/-- A view write: no output and no register changed (20_memory.md R64). -/
def viewWrite (k : Nat) (v : Byte) (s : State) : Result :=
  andThen (memWrite s k v) fun s1 => .next (s1.setResponse none)

/-- VIEW_READ_SECTOR, VIEW_WRITE_SECTOR, VIEW_READ_BLOCK and VIEW_WRITE_BLOCK (20_memory.md R64). -/
def execView (v : View) (s : State) : Result :=
  if viewAdmitted s then
    match v with
    | .readSector n i => viewRead (viewOffset (.readSector n i)) s
    | .writeSector n i b => viewWrite (viewOffset (.writeSector n i b)) b s
    | .readBlock b j => viewRead (viewOffset (.readBlock b j)) s
    | .writeBlock b j c => viewWrite (viewOffset (.writeBlock b j c)) c s
  else .refused .viewDuringFrame

/-- A card made with a caller's `INIT_STORAGE` and a `WRITE_COMMIT`; an array of another length than 131072 is refused
(70_reset_and_hazards.md R270). The data is copied in (20_memory.md R65). -/
def State.create (commit : Config.WriteCommit) (data : List Byte) : Result :=
  if data.length = Config.cardSize then
    .next { State.reset with storage := Memory.ofBytes 0 data, writeCommit := commit }
  else .refused (.initStorageLength data.length)

end Sys2Proof.Machine
end

