-- ==== Sys2Proof/Machine/Step.lean ====
section
/-!
DEFINITION. One step: the oldest operation the host has issued is taken, decoded in the state it meets, and run
(10_state.md R33, 20_memory.md R60, 30_encoding.md R70).
-/

namespace Sys2Proof.Machine

/-- One step. With no operation issued the block does nothing (40_power_and_transfer.md R107; log 8). -/
def step (s : State) : Host.Outcome State Fault Refusal :=
  match nextRequest s with
  | none => .next s
  | some (.op w, s1) =>
    match decode s1.context w with
    | .ok i => exec i s1
    | .error (.illegalState p) => .fault (.illegalState p)
  | some (.view v, s1) => execView v s1

/-- The state in which the host issues the operation word `w` next, on a card that stands where `tableContext` reads a
bare word (log 9): for a word that one TRANSFER row fixes bit for bit, powered and in that row's state; for every other
word the card is left as it stands. -/
def State.withFetchWord (s : State) (_nbits w : Nat) : State :=
  let word : OpWord := BitVec.ofNat 11 w
  let placed := s.setPending (.op word :: s.pending)
  if (tableContext word).poweredOn then (placed.setPoweredOn true).setPstate (tableContext word).pstate else placed

end Sys2Proof.Machine
end

