-- ==== Sys2Proof/Machine/Slot.lean ====
section
/-!
DEFINITION. The host: the slot and its routines (60_exceptions.md R240 to R249) and the pseudo-instructions
(30_encoding.md R92). None of this is the block (00_scope.md R5): it only drives the block, one step an operation (log 15).
-/

namespace Sys2Proof.Machine

/-- The cards, and the slots: each empty or holding one card, by its place among the cards (60_exceptions.md R240,
R248). -/
structure World where
  cards : List State
  slots : List (Option Nat)
deriving DecidableEq, Repr

/-- Cards, and `n` slots as they are created: empty (60_exceptions.md R240). -/
def World.create (cards : List State) (n : Nat) : World := ⟨cards, List.replicate n none⟩

/-- What a host routine gives: the world after it and its answer, or the stop of a step it made. -/
abbrev HostResult (α : Type) := Host.Outcome (World × α) Fault Refusal

/-- The answer of a routine, passed on with the world it leaves. -/
def thenDo {α β : Type} (r : HostResult α) (f : World → α → HostResult β) : HostResult β :=
  match r with
  | .next (w, a) => f w a
  | .fault e => .fault e
  | .refused e => .refused e

/-- One operation on one card: the host issues it and the card takes it (10_state.md R33). -/
def issue (r : Request) (s : State) : Result := step (s.setPending (r :: s.pending))

/-- One operation on the card at place `c`, and the card's outputs. -/
def World.drive (w : World) (c : Nat) (r : Request) : HostResult (Option Response) :=
  match w.cards[c]? with
  | none => .next (w, none)
  | some s =>
    match issue r s with
    | .next t => .next (⟨w.cards.set c t, w.slots⟩, t.response)
    | .fault e => .fault e
    | .refused e => .refused e

/-- The card a slot holds. -/
def World.held (w : World) (k : Nat) : Option Nat := (w.slots[k]?).join

/-- `insert_card` (60_exceptions.md R241): false if the slot holds a card, or the card is already powered. -/
def insertCard (k c : Nat) (w : World) : HostResult Bool :=
  match w.slots[k]?, w.cards[c]? with
  | some none, some _ =>
    thenDo (w.drive c (.op powerOnWord)) fun w1 r =>
      if r = some (.power true) then .next (⟨w1.cards, w1.slots.set k (some c)⟩, true) else .next (w1, false)
  | _, _ => .next (w, false)

/-- `remove_card` (60_exceptions.md R242): false if the slot is empty. -/
def removeCard (k : Nat) (w : World) : HostResult Bool :=
  match w.held k with
  | none => .next (w, false)
  | some c => thenDo (w.drive c (.op powerOffWord)) fun w1 _ => .next (⟨w1.cards, w1.slots.set k none⟩, true)

/-- The slot's `transfer` (60_exceptions.md R247): an empty slot gives `(false, absent)`. -/
def slotTransfer (k : Nat) (cmd : Tri) (w : World) : HostResult (Bool × Tri) :=
  match w.held k with
  | none => .next (w, (false, .z))
  | some c =>
    thenDo (w.drive c (.op (xferWord cmd))) fun w1 r =>
      match r with
      | some (.transfer ack data) => .next (w1, (ack, data))
      | _ => .next (w1, (false, .z))

/-- A run of transfers, each a byte to send and the byte wanted back, if any: false at the first one that misses its ACK
or its byte, and nothing is sent after it (60_exceptions.md R243, R244). -/
def exchange (k : Nat) : List (Byte × Option Byte) → World → HostResult Bool
  | [], w => .next (w, true)
  | (b, want) :: rest, w =>
    thenDo (slotTransfer k (.byte b) w) fun w1 r =>
      if r.1 = false then .next (w1, false)
      else
        match want with
        | none => exchange k rest w1
        | some v => if r.2 = .byte v then exchange k rest w1 else .next (w1, false)

/-- `n` data bytes of a read, after the bytes `got` (60_exceptions.md R243): false at a missing ACK or an absent byte. -/
def receive (k : Nat) : Nat → List Byte → World → HostResult (Bool × List Byte)
  | 0, got, w => .next (w, (true, got))
  | n + 1, got, w =>
    thenDo (slotTransfer k (.byte 0x00) w) fun w1 r =>
      match r with
      | (true, .byte d) => receive k n (got ++ [d]) w1
      | _ => .next (w1, (false, got))

/-- The XOR of a list of bytes. -/
def xorBytes : List Byte → Byte
  | [] => 0x00#8
  | b :: bs => b ^^^ xorBytes bs

/-- `MSB = n[15:8]` of a sector number (60_exceptions.md R243). -/
def sectorMsb (n : Nat) : Byte := addressMsb (BitVec.ofNat 16 n)

/-- `LSB = n[7:0]` of a sector number (60_exceptions.md R243). -/
def sectorLsb (n : Nat) : Byte := addressLsb (BitVec.ofNat 16 n)

/-- The header of `read_sector`, with what must come back (60_exceptions.md R243). -/
def readHeader (n : Nat) : List (Byte × Option Byte) :=
  [(0x81, none), (0x52, none), (0x00, some 0x5A), (0x00, some 0x5D), (sectorMsb n, none), (sectorLsb n, none),
    (0x00, some 0x5C), (0x00, some 0x5D), (0x00, some (sectorMsb n)), (0x00, some (sectorLsb n))]

/-- The end of `read_sector`: the card's checksum with ACK, the end status without (60_exceptions.md R243). -/
def readTail (k n : Nat) (out : List Byte) (w : World) : HostResult (Bool × List Byte) :=
  thenDo (slotTransfer k (.byte 0x00) w) fun w1 sum =>
    if sum.1 = false then .next (w1, (false, out))
    else
      thenDo (slotTransfer k (.byte 0x00) w1) fun w2 st =>
        if st.1 = true then .next (w2, (false, out))
        else
          .next (w2,
            (decide (st.2 = .byte 0x47) && decide (sum.2 = .byte (sectorMsb n ^^^ sectorLsb n ^^^ xorBytes out)), out))

/-- `read_sector` (60_exceptions.md R243): the answer and the data bytes received. A sector index of 0x10000 or more is
refused (R249). -/
def readSector (k n : Nat) (w : World) : HostResult (Bool × List Byte) :=
  if 0x10000 ≤ n then .refused (.sectorIndex n)
  else
    match w.held k with
    | none => .next (w, (false, []))
    | some _ =>
      thenDo (exchange k (readHeader n) w) fun w1 ok =>
        if ok then
          thenDo (receive k 128 [] w1) fun w2 got => if got.1 then readTail k n got.2 w2 else .next (w2, got)
        else .next (w1, (false, []))

/-- The host's checksum of a write: MSB, LSB and the data (60_exceptions.md R244). -/
def hostChecksum (n : Nat) (data : List Byte) : Byte := sectorMsb n ^^^ sectorLsb n ^^^ xorBytes data

/-- The first 137 transfers of `write_sector`, with what must come back (60_exceptions.md R244). -/
def writeBody (n : Nat) (data : List Byte) : List (Byte × Option Byte) :=
  [(0x81, none), (0x57, none), (0x00, some 0x5A), (0x00, some 0x5D), (sectorMsb n, none), (sectorLsb n, none)]
    ++ data.map (fun b => (b, none))
    ++ [(hostChecksum n data, none), (0x00, some 0x5C), (0x00, some 0x5D)]

/-- `write_sector` (60_exceptions.md R244). A sector index of 0x10000 or more is refused (R249). The rule types the data as
`D[128]`; that data of another length is sent as it stands is the model's choice (log 20). -/
def writeSector (k n : Nat) (data : List Byte) (w : World) : HostResult Bool :=
  if 0x10000 ≤ n then .refused (.sectorIndex n)
  else
    match w.held k with
    | none => .next (w, false)
    | some _ =>
      thenDo (exchange k (writeBody n data) w) fun w1 ok =>
        if ok then
          thenDo (slotTransfer k (.byte 0x00) w1) fun w2 st =>
            .next (w2, (st.1 = false && decide (st.2 = .byte 0x47)))
        else .next (w1, false)

/-- `count` sector reads in order from sector `n`, all of them made (60_exceptions.md R245): the conjunction of their
answers, and each one's data. -/
def readSectors (k : Nat) : Nat → Nat → World → HostResult (Bool × List (List Byte))
  | _, 0, w => .next (w, (true, []))
  | n, count + 1, w =>
    thenDo (readSector k n w) fun w1 one =>
      thenDo (readSectors k (n + 1) count w1) fun w2 rest => .next (w2, (one.1 && rest.1, one.2 :: rest.2))

/-- `count` sector writes in order from sector `n`, all of them made, each of the next 128 bytes (60_exceptions.md
R245). -/
def writeSectors (k : Nat) : Nat → Nat → List Byte → World → HostResult Bool
  | _, 0, _, w => .next (w, true)
  | n, count + 1, data, w =>
    thenDo (writeSector k n (data.take Config.sectorSize) w) fun w1 one =>
      thenDo (writeSectors k (n + 1) count (data.drop Config.sectorSize) w1) fun w2 rest => .next (w2, one && rest)

/-- `read_block` (60_exceptions.md R245). -/
def readBlock (k b : Nat) (w : World) : HostResult (Bool × List (List Byte)) :=
  readSectors k (b * Config.sectorsPerBlock) Config.sectorsPerBlock w

/-- `write_block` (60_exceptions.md R245), of 8192 bytes; another length is the model's choice (log 20). -/
def writeBlock (k b : Nat) (data : List Byte) (w : World) : HostResult Bool :=
  writeSectors k (b * Config.sectorsPerBlock) Config.sectorsPerBlock data w

/-- `count` block reads in order from block `b`, all of them made (60_exceptions.md R246). -/
def readBlocks (k : Nat) : Nat → Nat → World → HostResult (Bool × List (List Byte))
  | _, 0, w => .next (w, (true, []))
  | b, count + 1, w =>
    thenDo (readBlock k b w) fun w1 one =>
      thenDo (readBlocks k (b + 1) count w1) fun w2 rest => .next (w2, (one.1 && rest.1, one.2 ++ rest.2))

/-- `count` block writes in order from block `b`, all of them made, each of the next 8192 bytes (60_exceptions.md
R246). -/
def writeBlocks (k : Nat) : Nat → Nat → List Byte → World → HostResult Bool
  | _, 0, _, w => .next (w, true)
  | b, count + 1, data, w =>
    thenDo (writeBlock k b (data.take Config.blockSize) w) fun w1 one =>
      thenDo (writeBlocks k (b + 1) count (data.drop Config.blockSize) w1) fun w2 rest => .next (w2, one && rest)

/-- `read_card` (60_exceptions.md R246). -/
def readCard (k : Nat) (w : World) : HostResult (Bool × List (List Byte)) := readBlocks k 0 Config.blockCount w

/-- `write_card` (60_exceptions.md R246), of 131072 bytes; another length is the model's choice (log 20). -/
def writeCard (k : Nat) (data : List Byte) (w : World) : HostResult Bool := writeBlocks k 0 Config.blockCount data w

/-- The operation words of a run of concrete bytes (30_encoding.md R91). -/
def xferBytes (bytes : List Byte) : List Request := bytes.map fun b => .op (xferWord (.byte b))

/-- The pseudo-instruction `IDENTIFY` (30_encoding.md R92). -/
def identifyFrame : List Request := xferBytes ([0x81, 0x53] ++ List.replicate 8 0x00)

/-- The pseudo-instruction `READ_SECTOR n` (30_encoding.md R92). -/
def readSectorFrame (n : BitVec 16) : List Request :=
  xferBytes ([0x81, 0x52, 0x00, 0x00, addressMsb n, addressLsb n] ++ List.replicate 134 0x00)

/-- The pseudo-instruction `WRITE_SECTOR n, D` (30_encoding.md R92), of 128 bytes; another length is the model's choice
(log 20). -/
def writeSectorFrame (n : BitVec 16) (data : List Byte) : List Request :=
  xferBytes ([0x81, 0x57, 0x00, 0x00, addressMsb n, addressLsb n] ++ data
    ++ [addressMsb n ^^^ addressLsb n ^^^ xorBytes data, 0x00, 0x00, 0x00])

end Sys2Proof.Machine
end

