-- ==== Sys2Proof/Safety.lean ====
section
/-!
DEFINITION. What holds of a card in every state a run from creation reaches, in the terms the statements use: the
register invariants of 10_state.md R22 to R28, the checksum's meaning (42_read_sector.md R152, 43_write_sector.md R175), and
when data waits in the write buffer (43_write_sector.md R182).
-/

namespace Sys2Proof.Machine

/-- The register and store invariants of a card (10_state.md R22 to R28, 42_read_sector.md R149). -/
structure CardInv (s : State) : Prop where
  /-- `pstate` is one of the 284 legal values (10_state.md R23). -/
  legal : s.pstate.legal = true
  /-- A powered card's `flag` is `FLAG_RESET` (10_state.md R22). -/
  flag : s.poweredOn = true → s.flag = flagReset
  /-- The store is in its canonical form. -/
  store : s.storage.wf = true
  /-- After the MSB, `address` is `{MSB, 0x00}` and `checksum` is the MSB (10_state.md R26, R27). -/
  msb : s.pstate = PState.read 3 ∨ s.pstate = PState.write 3 → s.address = addressOfMsb s.checksum
  /-- From step 4 of a read on, `address` is a sector number or `POISON` (10_state.md R26). -/
  readAddress : s.pstate.tag = 0b010#3 → 4 ≤ s.pstate.step.toNat →
    s.address = poison ∨ s.address.toNat ≤ maxSector.toNat
  /-- From step 8 of a read on, `address` is a sector number (42_read_sector.md R149). -/
  readSector : s.pstate.tag = 0b010#3 → 8 ≤ s.pstate.step.toNat → s.address.toNat ≤ maxSector.toNat
  /-- From step 4 of a write on, `address` is a sector number or `POISON` (10_state.md R26). -/
  writeAddress : s.pstate.tag = 0b011#3 → 4 ≤ s.pstate.step.toNat →
    s.address = poison ∨ s.address.toNat ≤ maxSector.toNat
  /-- In `READ(4)` to `READ(8)` no data byte has moved yet (10_state.md R28). -/
  readStart : s.pstate.tag = 0b010#3 → 4 ≤ s.pstate.step.toNat → s.pstate.step.toNat ≤ 8 → s.byteCounter = 0
  /-- In `READ(s)` with `8 <= s <= 136`, `byte_counter = s - 8` (10_state.md R28). -/
  readCounter : s.pstate.tag = 0b010#3 → 8 ≤ s.pstate.step.toNat → s.pstate.step.toNat ≤ 136 →
    s.byteCounter.toNat = s.pstate.step.toNat - 8
  /-- In `READ(137)` all 128 bytes have moved. -/
  readDone : s.pstate = PState.read 137 → s.byteCounter = 128
  /-- In `WRITE(s)` with `4 <= s <= 132`, `byte_counter = s - 4` (10_state.md R28). -/
  writeCounter : s.pstate.tag = 0b011#3 → 4 ≤ s.pstate.step.toNat → s.pstate.step.toNat ≤ 132 →
    s.byteCounter.toNat = s.pstate.step.toNat - 4
  /-- In `WRITE(133)` to `WRITE(135)` all 128 bytes have moved. -/
  writeDone : s.pstate.tag = 0b011#3 → 133 ≤ s.pstate.step.toNat → s.byteCounter = 128

/-- The XOR of the first `n` values of `f`. -/
def xorUpTo (f : Nat → Byte) : Nat → Byte
  | 0 => 0x00#8
  | n + 1 => xorUpTo f n ^^^ f n

/-- Byte `j` of the sector at `address`, as the store holds it (20_memory.md R52). -/
def sectorByte (s : State) (j : Nat) : Byte := s.storage.read (sectorBase s.address + j)

/-- Data byte `j` of the open write, where `WRITE_COMMIT` keeps it: in the store, or in `wbuf` (43_write_sector.md
R182). -/
def receivedByte (s : State) (j : Nat) : Byte :=
  match s.writeCommit with
  | .perByte => sectorByte s j
  | .afterData => s.wbuf[j]?.getD 0x00#8
  | .atEnd => s.wbuf[j]?.getD 0x00#8

/-- What an open frame on a valid sector has made of its data: the running checksum is the XOR of the two address bytes
and the data bytes moved so far (42_read_sector.md R152, 43_write_sector.md R175), and `AFTER_DATA` has committed them all
by step 132 (R182). -/
structure FrameInv (s : State) : Prop where
  /-- of a read, from step 4 to its end -/
  read : s.poweredOn = true → s.pstate.tag = 0b010#3 → 4 ≤ s.pstate.step.toNat → s.address ≠ poison →
    s.checksum = addressMsb s.address ^^^ addressLsb s.address ^^^ xorUpTo (sectorByte s) s.byteCounter.toNat
  /-- of a write, from step 4 until the host's checksum is folded in -/
  write : s.poweredOn = true → s.pstate.tag = 0b011#3 → 4 ≤ s.pstate.step.toNat → s.pstate.step.toNat ≤ 132 →
    s.address ≠ poison →
    s.checksum = addressMsb s.address ^^^ addressLsb s.address ^^^ xorUpTo (receivedByte s) s.byteCounter.toNat
  /-- of a write under `AFTER_DATA`, from step 132 to its end -/
  committed : s.poweredOn = true → s.pstate.tag = 0b011#3 → 132 ≤ s.pstate.step.toNat → s.address ≠ poison →
    s.writeCommit = .afterData → ∀ j < 128, sectorByte s j = receivedByte s j

/-- The data of the open write waits in `wbuf` and has not reached the store (43_write_sector.md R182). -/
def dataWaits (s : State) : Prop :=
  s.poweredOn = true ∧ s.pstate.tag = 0b011#3 ∧ 4 ≤ s.pstate.step.toNat ∧ s.address ≠ poison ∧
    ((s.writeCommit = .afterData ∧ s.pstate.step.toNat ≤ 131) ∨
      (s.writeCommit = .atEnd ∧ s.pstate.step.toNat ≤ 135))

/-- Offset `a` belongs to a data byte of the open write that has arrived. -/
def arrived (s : State) (a : Nat) : Prop :=
  sectorBase s.address ≤ a ∧ a < sectorBase s.address + s.byteCounter.toNat

/-- Two cards given the same operations, `s` with `WRITE_COMMIT = PER_BYTE` and `t` with any value: every register and
output agree, and the stores agree but for the data that waits in `t`'s buffer (43_write_sector.md R182). -/
structure SameButCommit (s t : State) : Prop where
  perByte : s.writeCommit = .perByte
  poweredOn : s.poweredOn = t.poweredOn
  flag : s.flag = t.flag
  pstate : s.pstate = t.pstate
  address : s.address = t.address
  checksum : s.checksum = t.checksum
  byteCounter : s.byteCounter = t.byteCounter
  pending : s.pending = t.pending
  response : s.response = t.response
  /-- data that waits in `t`'s buffer is in `s`'s store -/
  waiting : dataWaits t → ∀ a, arrived t a →
    s.storage.read a = t.wbuf[a - sectorBase t.address]?.getD 0x00#8
  /-- everywhere else the stores agree -/
  settled : ∀ a, ¬(dataWaits t ∧ arrived t a) → s.storage.read a = t.storage.read a

/-- The oldest operation issued is the TRANSFER word `w` (30_encoding.md R71). -/
def nextIsTransfer (s : State) (w : OpWord) : Prop :=
  s.pending.head? = some (.op w) ∧ opField w = 0b00#2

/-- A frame is open: the card is powered and `pstate` is not `IDLE` (00_scope.md R10). -/
def frameOpen (s : State) : Prop := s.poweredOn = true ∧ s.pstate ≠ PState.idle

/-- Every TRANSFER word on a powered card in `p` is read as `row` of its tri-state byte, and `row` runs to the state
`effect` gives: the encoding and the pseudocode of a rule of one protocol state (40_power_and_transfer.md R103). -/
def RowRuns (p : PState) (row : Tri → Instr) (effect : Tri → State → State) : Prop :=
  ∀ s : State, s.poweredOn = true → s.pstate = p →
    (∀ w : OpWord, w.extractLsb' 9 2 = 0b00#2 → decode s.context w = .ok (row (triField w))) ∧
    (∀ cmd : Tri, exec (row cmd) s = .next (effect cmd s))

/-- The slots' rule (60_exceptions.md R240, R248): a card in a slot is powered, and is in no other slot. -/
structure SlotInv (w : World) : Prop where
  powered : ∀ k c, w.held k = some c → ∃ s, w.cards[c]? = some s ∧ s.poweredOn = true
  alone : ∀ k j c, w.held k = some c → w.held j = some c → k = j

/-- The byte the host sends at step `k` of a sub-sequence, an absent one made concrete: `ws` are the words it issues after
the command (00_scope.md R10, 40_power_and_transfer.md R105). -/
def sentByte (ws : List OpWord) (k : Nat) : Byte := conc (triField (ws.getD k 0x000#11))

/-- `k` steps, stopping at the first fault or refusal. -/
def steps : Nat → State → Result
  | 0, s => .next s
  | k + 1, s => andThen (step s) (steps k)

end Sys2Proof.Machine
end

