-- ==== Sys2Proof/Certificates/Slice0/Obligations.lean ====
section
/-!
DEFINITION. The statements for the provers, one `def Obligations.<Name> : Prop` each, listed in OBLIGATIONS.json. Each
docstring names the rules of spec/ it formalises.
-/

open Sys2Proof Sys2Proof.Machine

/-! ### Power operations, reserved words, the unpowered card -/

/-- POWER_ON: word 0x200; 0 and no change on a powered card; else `powered_on`, `flag`, `pstate` are set and 1 is given
(R100). -/
def Obligations.PowerOnSetsFlagAndIdle : Prop :=
  ∀ s : State,
    decode s.context 0x200#11 = .ok .powerOn ∧
    (s.poweredOn = true → exec .powerOn s = .next { s with response := some (.power false) }) ∧
    (s.poweredOn = false → exec .powerOn s =
      .next { s with poweredOn := true, flag := 0x08#8, pstate := PState.idle, response := some (.power true) })

/-- POWER_OFF: word 0x400; 0 and no change on an unpowered card; else only `powered_on` is cleared and 1 is given
(R101). -/
def Obligations.PowerOffClearsPowerOnly : Prop :=
  ∀ s : State,
    decode s.context 0x400#11 = .ok .powerOff ∧
    (s.poweredOn = false → exec .powerOff s = .next { s with response := some (.power false) }) ∧
    (s.poweredOn = true → exec .powerOff s = .next { s with poweredOn := false, response := some (.power true) })

/-- A reserved word, `op` = 11 or a POWER word with bits 8:0 not all 0, is refused with the word, in every state; so is
its instruction (R88). -/
def Obligations.ReservedWordIsRefused : Prop :=
  (∀ (w : OpWord) (s : State), exec (.reservedOp11 w) s = .refused (.reservedOperation w)) ∧
  ∀ (s : State) (w : OpWord) (rest : List Request), s.pending = .op w :: rest →
    (w.extractLsb' 9 2 = 0b11#2 ∨
      ((w.extractLsb' 9 2 = 0b01#2 ∨ w.extractLsb' 9 2 = 0b10#2) ∧ w.extractLsb' 0 9 ≠ 0#9)) →
    step s = .refused (.reservedOperation w)

/-- Every TRANSFER on an unpowered card answers `(0, Z)` and changes no state (R102). -/
def Obligations.UnpoweredTransferAnswersAbsent : Prop :=
  (∀ (s : State) (cmd : Tri), s.poweredOn = false →
    exec (.xferUnpowered cmd) s = .next { s with response := some (.transfer false .z) }) ∧
  ∀ (s : State) (w : OpWord), s.poweredOn = false → w.extractLsb' 9 2 = 0b00#2 →
    decode s.context w = .ok (.xferUnpowered (triField w))

/-! ### Command dispatch -/

/-- `IDLE`: `0x81` (word 0x181) opens a frame with `(1, Z)`; every other input is ignored with `(0, Z)` (R120, R121). -/
def Obligations.IdleRowsRun : Prop :=
  ∀ s : State, s.poweredOn = true → s.pstate = PState.idle →
    decode s.context 0x181#11 = .ok .frameStart ∧
    exec .frameStart s = .next { s with pstate := PState.awaitCmd, response := some (.transfer true .z) } ∧
    (∀ w : OpWord, w.extractLsb' 9 2 = 0b00#2 → w ≠ 0x181#11 → decode s.context w = .ok (.idleIgnore (triField w))) ∧
    (∀ cmd : Tri, cmd ≠ .byte 0x81#8 →
      exec (.idleIgnore cmd) s = .next { s with response := some (.transfer false .z) })

/-- `AWAIT_CMD`: `0x52`, `0x57`, `0x53` open a sub-sequence, every other input ends the frame; the answer is always
`flag` (R122 to R125). -/
def Obligations.AwaitRowsRun : Prop :=
  ∀ s : State, s.poweredOn = true → s.pstate = PState.awaitCmd →
    decode s.context 0x152#11 = .ok .cmdRead ∧ decode s.context 0x157#11 = .ok .cmdWrite ∧
    decode s.context 0x153#11 = .ok .cmdIdentify ∧
    exec .cmdRead s = .next { s with pstate := PState.read 0, response := some (.transfer true (.byte s.flag)) } ∧
    exec .cmdWrite s = .next { s with pstate := PState.write 0, response := some (.transfer true (.byte s.flag)) } ∧
    exec .cmdIdentify s = .next { s with pstate := PState.ident 0, response := some (.transfer true (.byte s.flag)) } ∧
    (∀ w : OpWord, w.extractLsb' 9 2 = 0b00#2 → w ≠ 0x152#11 → w ≠ 0x157#11 → w ≠ 0x153#11 →
      decode s.context w = .ok (.cmdReject (triField w))) ∧
    (∀ cmd : Tri, cmd ≠ .byte 0x52#8 → cmd ≠ .byte 0x57#8 → cmd ≠ .byte 0x53#8 →
      exec (.cmdReject cmd) s = .next { s with pstate := PState.idle, response := some (.transfer false (.byte s.flag)) })

/-! ### Read sector -/

/-- The ID tag and the command acknowledge of a read (R140, R141, R145, R146). -/
def Obligations.ReadTagRowsRun : Prop :=
  RowRuns (PState.read 0) .readId0
    (fun _ s => { s with pstate := PState.read 1, response := some (.transfer true (.byte 0x5A#8)) }) ∧
  RowRuns (PState.read 1) .readId1
    (fun _ s => { s with pstate := PState.read 2, response := some (.transfer true (.byte 0x5D#8)) }) ∧
  RowRuns (PState.read 4) .readAck0
    (fun _ s => { s with pstate := PState.read 5, response := some (.transfer true (.byte 0x5C#8)) }) ∧
  RowRuns (PState.read 5) .readAck1
    (fun _ s => { s with pstate := PState.read 6, response := some (.transfer true (.byte 0x5D#8)) })

/-- The address steps of a read: MSB, then LSB, decode and counter (R142, R143). -/
def Obligations.ReadAddressRowsRun : Prop :=
  RowRuns (PState.read 2) .readAddrMsb
    (fun cmd s => { s with
      address := conc cmd ++ 0x00#8, checksum := conc cmd, pstate := PState.read 3,
      response := some (.transfer true (.byte 0x00#8)) }) ∧
  RowRuns (PState.read 3) .readAddrLsb
    (fun cmd s => { s with
      address := decodeAddress (s.address ||| (conc cmd).setWidth 16), checksum := s.checksum ^^^ conc cmd,
      byteCounter := 0#8, pstate := PState.read 4, response := some (.transfer true (.byte 0x00#8)) })

/-- The echo of a read: `address[15:8]`, then `address[7:0]`, or the end of the frame for a poisoned address
(R147, R148). -/
def Obligations.ReadEchoRowsRun : Prop :=
  RowRuns (PState.read 6) .readEchoMsb
    (fun _ s => { s with
      pstate := PState.read 7, response := some (.transfer true (.byte (s.address.extractLsb' 8 8))) }) ∧
  RowRuns (PState.read 7) .readEchoLsb
    (fun _ s =>
      if s.address = 0xFFFF#16 then
        { s with pstate := PState.idle, response := some (.transfer false (.byte 0xFF#8)) }
      else
        { s with pstate := PState.read 8, response := some (.transfer true (.byte (s.address.extractLsb' 0 8))) })

/-- A data step of a read gives the addressed byte of the store, folds it into the checksum, counts it and moves on; the
store is not written (R149). The address and the counter are as the rule says they are there. -/
def Obligations.ReadDataRowRuns : Prop :=
  ∀ s : State, s.poweredOn = true → s.pstate.tag = 0b010#3 → 8 ≤ s.pstate.step.toNat → s.pstate.step.toNat ≤ 135 →
    s.address.toNat ≤ 0x3FF → s.byteCounter.toNat = s.pstate.step.toNat - 8 →
    (∀ w : OpWord, w.extractLsb' 9 2 = 0b00#2 → decode s.context w = .ok (.readData (triField w))) ∧
    ∀ cmd : Tri, exec (.readData cmd) s = .next { s with
      checksum := s.checksum ^^^ s.storage.read (s.address.toNat * 128 + s.byteCounter.toNat),
      byteCounter := s.byteCounter + 1#8,
      pstate := PState.read (s.pstate.step + 1#8),
      response := some (.transfer true (.byte (s.storage.read (s.address.toNat * 128 + s.byteCounter.toNat)))) }

/-- The end of a read: the checksum, then `0x47` without ACK (R150, R151). -/
def Obligations.ReadEndRowsRun : Prop :=
  RowRuns (PState.read 136) .readChecksum
    (fun _ s => { s with pstate := PState.read 137, response := some (.transfer true (.byte s.checksum)) }) ∧
  RowRuns (PState.read 137) .readStatus
    (fun _ s => { s with pstate := PState.idle, response := some (.transfer false (.byte 0x47#8)) })

/-! ### Write sector -/

/-- The ID tag and the command acknowledge of a write (R170, R171, R179, R180). -/
def Obligations.WriteTagRowsRun : Prop :=
  RowRuns (PState.write 0) .writeId0
    (fun _ s => { s with pstate := PState.write 1, response := some (.transfer true (.byte 0x5A#8)) }) ∧
  RowRuns (PState.write 1) .writeId1
    (fun _ s => { s with pstate := PState.write 2, response := some (.transfer true (.byte 0x5D#8)) }) ∧
  RowRuns (PState.write 133) .writeAck0
    (fun _ s => { s with pstate := PState.write 134, response := some (.transfer true (.byte 0x5C#8)) }) ∧
  RowRuns (PState.write 134) .writeAck1
    (fun _ s => { s with pstate := PState.write 135, response := some (.transfer true (.byte 0x5D#8)) })

/-- The address steps of a write, and the host's checksum folded in (R172, R173, R178). -/
def Obligations.WriteAddressAndChecksumRowsRun : Prop :=
  RowRuns (PState.write 2) .writeAddrMsb
    (fun cmd s => { s with
      address := conc cmd ++ 0x00#8, checksum := conc cmd, pstate := PState.write 3,
      response := some (.transfer true (.byte 0x00#8)) }) ∧
  RowRuns (PState.write 3) .writeAddrLsb
    (fun cmd s => { s with
      address := decodeAddress (s.address ||| (conc cmd).setWidth 16), checksum := s.checksum ^^^ conc cmd,
      byteCounter := 0#8, pstate := PState.write 4, response := some (.transfer true (.byte 0x00#8)) }) ∧
  RowRuns (PState.write 132) .writeChecksum
    (fun cmd s => { s with
      checksum := s.checksum ^^^ conc cmd, pstate := PState.write 133,
      response := some (.transfer true (.byte 0x00#8)) })

/-- A data step of a write under every `WRITE_COMMIT` (R177): the checksum, the counter, the state and the answer in all
of them; and the byte to its offset of the store (`PER_BYTE`), to the buffer (`AT_END`, and `AFTER_DATA` before step 131),
to the buffer and then all 128 buffered bytes to the sector (`AFTER_DATA` at step 131), or nowhere (a poisoned address).
Every byte of the store that is not named is unchanged. -/
def Obligations.WriteDataRowRuns : Prop :=
  ∀ s : State, s.poweredOn = true → s.pstate.tag = 0b011#3 → 4 ≤ s.pstate.step.toNat → s.pstate.step.toNat ≤ 131 →
    s.address = 0xFFFF#16 ∨ s.address.toNat ≤ 0x3FF → s.byteCounter.toNat = s.pstate.step.toNat - 4 →
    s.storage.wf = true →
    (∀ w : OpWord, w.extractLsb' 9 2 = 0b00#2 → decode s.context w = .ok (.writeData (triField w))) ∧
    ∀ cmd : Tri, ∃ (m : Memory) (b : Vector Byte 128),
      exec (.writeData cmd) s = .next { s with
        storage := m, wbuf := b, checksum := s.checksum ^^^ conc cmd, byteCounter := s.byteCounter + 1#8,
        pstate := PState.write (s.pstate.step + 1#8), response := some (.transfer true (.byte 0x00#8)) } ∧
      m.wf = true ∧
      (if s.address = 0xFFFF#16 then m = s.storage ∧ b = s.wbuf
       else if s.writeCommit = .perByte then
        b = s.wbuf ∧ m.read (s.address.toNat * 128 + s.byteCounter.toNat) = conc cmd ∧
        ∀ a, a ≠ s.address.toNat * 128 + s.byteCounter.toNat → m.read a = s.storage.read a
       else
        b[s.byteCounter.toNat]? = some (conc cmd) ∧
        (∀ j, j ≠ s.byteCounter.toNat → b[j]? = s.wbuf[j]?) ∧
        (if s.writeCommit = .afterData ∧ s.pstate.step.toNat = 131 then
          (∀ j < 128, some (m.read (s.address.toNat * 128 + j)) = b[j]?) ∧
          ∀ a, (a < s.address.toNat * 128 ∨ s.address.toNat * 128 + 128 ≤ a) → m.read a = s.storage.read a
         else m = s.storage))

/-- The end of a write (R181, R176): under `AT_END` a valid sector gets all 128 buffered bytes, else the store is
unchanged; the end status is bad sector before bad checksum before good; the frame ends. -/
def Obligations.WriteStatusRowRuns : Prop :=
  ∀ s : State, s.poweredOn = true → s.pstate = PState.write 135 →
    s.address = 0xFFFF#16 ∨ s.address.toNat ≤ 0x3FF → s.storage.wf = true →
    (∀ w : OpWord, w.extractLsb' 9 2 = 0b00#2 → decode s.context w = .ok (.writeStatus (triField w))) ∧
    ∀ cmd : Tri, ∃ m : Memory,
      exec (.writeStatus cmd) s = .next { s with
        storage := m, pstate := PState.idle,
        response := some (.transfer false (.byte
          (if s.address = 0xFFFF#16 then 0xFF#8 else if s.checksum ≠ 0x00#8 then 0x4E#8 else 0x47#8))) } ∧
      m.wf = true ∧
      (if s.writeCommit = .atEnd ∧ s.address ≠ 0xFFFF#16 then
        (∀ j < 128, some (m.read (s.address.toNat * 128 + j)) = s.wbuf[j]?) ∧
        ∀ a, (a < s.address.toNat * 128 ∨ s.address.toNat * 128 + 128 ≤ a) → m.read a = s.storage.read a
       else m = s.storage)

/-! ### Identify -/

/-- The eight steps of identify, each with its fixed byte, ACK on all but the last (R200 to R207). -/
def Obligations.IdentifyRowsRun : Prop :=
  RowRuns (PState.ident 0) .identStep0
    (fun _ s => { s with pstate := PState.ident 1, response := some (.transfer true (.byte 0x5A#8)) }) ∧
  RowRuns (PState.ident 1) .identStep1
    (fun _ s => { s with pstate := PState.ident 2, response := some (.transfer true (.byte 0x5D#8)) }) ∧
  RowRuns (PState.ident 2) .identStep2
    (fun _ s => { s with pstate := PState.ident 3, response := some (.transfer true (.byte 0x5C#8)) }) ∧
  RowRuns (PState.ident 3) .identStep3
    (fun _ s => { s with pstate := PState.ident 4, response := some (.transfer true (.byte 0x5D#8)) }) ∧
  RowRuns (PState.ident 4) .identStep4
    (fun _ s => { s with pstate := PState.ident 5, response := some (.transfer true (.byte 0x04#8)) }) ∧
  RowRuns (PState.ident 5) .identStep5
    (fun _ s => { s with pstate := PState.ident 6, response := some (.transfer true (.byte 0x00#8)) }) ∧
  RowRuns (PState.ident 6) .identStep6
    (fun _ s => { s with pstate := PState.ident 7, response := some (.transfer true (.byte 0x00#8)) }) ∧
  RowRuns (PState.ident 7) .identStep7
    (fun _ s => { s with pstate := PState.idle, response := some (.transfer false (.byte 0x80#8)) })

/-! ### Operands, status and response words -/

/-- The address decode: above 0x03FF it is `POISON`, else the number itself (R144). -/
def Obligations.AddressDecodePoisonsOutOfRange : Prop :=
  ∀ raw : BitVec 16,
    (0x03FF < raw.toNat → decodeAddress raw = 0xFFFF#16) ∧ (raw.toNat ≤ 0x03FF → decodeAddress raw = raw)

/-- After the two address steps of a read or a write, `address` is the decoded `{conc(MSB), conc(LSB)}`, `checksum` is
`MSB ^ LSB`, `byte_counter` is 0 (R80, with R142, R143, R172, R173). -/
def Obligations.AddressIsAssembledMsbFirst : Prop :=
  ∀ (s t u : State) (m l : Tri), s.poweredOn = true →
    ((exec (.readAddrMsb m) s = .next t ∧ exec (.readAddrLsb l) t = .next u) ∨
      (exec (.writeAddrMsb m) s = .next t ∧ exec (.writeAddrLsb l) t = .next u)) →
    u.address = decodeAddress (conc m ++ conc l) ∧ u.checksum = conc m ^^^ conc l ∧ u.byteCounter = 0#8

/-- `conc(t)` is `0xFF` for `Z` and the byte itself otherwise (R105). -/
def Obligations.ConcSubstitutesForAbsent : Prop :=
  conc .z = 0xFF#8 ∧ ∀ b : Byte, conc (.byte b) = b

/-- The verdict of a write: bad sector, then bad checksum, then good (R176). -/
def Obligations.VerdictPrefersBadSector : Prop :=
  (∀ c : Byte, verdict 0xFFFF#16 c = 0xFF#8) ∧
  (∀ (a : BitVec 16) (c : Byte), a ≠ 0xFFFF#16 → c ≠ 0x00#8 → verdict a c = 0x4E#8) ∧
  ∀ a : BitVec 16, a ≠ 0xFFFF#16 → verdict a 0x00#8 = 0x47#8

/-- The 10-bit response words, field by field (R73, R74). -/
def Obligations.ResponseWordsHaveTheirFields : Prop :=
  ∀ flag : Bool,
    (∀ b : Byte, ∃ w, responseWord (.transfer flag (.byte b)) = some w ∧
      w.getLsbD 9 = flag ∧ w.getLsbD 8 = true ∧ w.extractLsb' 0 8 = b) ∧
    (∃ w, responseWord (.transfer flag .z) = some w ∧
      w.getLsbD 9 = flag ∧ w.getLsbD 8 = false ∧ w.extractLsb' 0 8 = 0x00#8) ∧
    ∃ w, responseWord (.power flag) = some w ∧
      w.getLsbD 9 = flag ∧ w.getLsbD 8 = false ∧ w.extractLsb' 0 8 = 0x00#8

/-- The encoding of the protocol state: `{tag, step}` and back, for all 2048 words; the five tags; and exactly the 284
values of R23 are legal (R23, R24). -/
def Obligations.ProtocolStateEncoding : Prop :=
  (∀ w : BitVec 11, (PState.ofBits w).bits = w) ∧ (∀ p : PState, PState.ofBits p.bits = p) ∧
  PState.idle.bits = 0x000#11 ∧ PState.awaitCmd.bits = 0x100#11 ∧
  (∀ k, (PState.read k).bits = 0b010#3 ++ k) ∧ (∀ k, (PState.write k).bits = 0b011#3 ++ k) ∧
  (∀ k, (PState.ident k).bits = 0b100#3 ++ k) ∧
  (∀ p : PState, p.legal = true ↔
    p.bits = 0x000#11 ∨ p.bits = 0x100#11 ∨ (∃ k : Nat, k ≤ 137 ∧ p.bits = BitVec.ofNat 11 (0x200 + k)) ∨
      (∃ k : Nat, k ≤ 135 ∧ p.bits = BitVec.ofNat 11 (0x300 + k)) ∨
      ∃ k : Nat, k ≤ 7 ∧ p.bits = BitVec.ofNat 11 (0x400 + k))

/-! ### Decoding -/

/-- The words of the rows that fix every bit, and one word of each other kind, decode to their rows in the state the row
names (spec/opcode_table.json; R71, R91). -/
def Obligations.WordsDecodeToTheirRows : Prop :=
  decode ⟨false, PState.idle⟩ 0x200#11 = .ok .powerOn ∧
  decode ⟨true, PState.read 5#8⟩ 0x400#11 = .ok .powerOff ∧
  decode ⟨true, PState.idle⟩ 0x600#11 = .ok (.reservedOp11 0x600#11) ∧
  decode ⟨false, PState.read 9#8⟩ 0x181#11 = .ok (.xferUnpowered (.byte 0x81#8)) ∧
  decode ⟨true, PState.idle⟩ 0x181#11 = .ok .frameStart ∧
  decode ⟨true, PState.awaitCmd⟩ 0x152#11 = .ok .cmdRead ∧
  decode ⟨true, PState.read 0#8⟩ 0x181#11 = .ok (.readId0 (.byte 0x81#8)) ∧
  decode ⟨true, PState.write 131#8⟩ 0x0AA#11 = .ok (.writeData .z) ∧
  decode ⟨true, PState.ident 7#8⟩ 0x1FF#11 = .ok (.identStep7 (.byte 0xFF#8))

/-- Decode and encode agree: in every context the row runs in, the word of a well-formed instruction decodes to it, with
every operand (R71, R72, R83, R88). -/
def Obligations.DecodeOfEncode : Prop :=
  ∀ (c : Context) (i : Instr), WellFormed i = true → selectedIn c i = true → decode c (encode i) = .ok i

/-- A word decodes to one row only: the row runs in the context, admits the operands, and its encoding is the word again,
with the ignored bits of an absent byte cleared (R72, R83). -/
def Obligations.DecodedRowIsSelected : Prop :=
  ∀ (c : Context) (w : OpWord) (i : Instr), decode c w = .ok i →
    selectedIn c i = true ∧ WellFormed i = true ∧
    encode i = if w.extractLsb' 8 3 = 0b000#3 then 0x000#11 else w

/-- The tri-state byte of an operation word: `V = 1` is the byte `B`; `V = 0` is `Z` and its bits `B` are ignored, so that
a step takes every `{0, B}` as the same `Z` (R72). -/
def Obligations.AbsentByteBitsAreIgnored : Prop :=
  (∀ b : Byte, triField (0b001#3 ++ b) = .byte b) ∧ (∀ b : Byte, triField (0b000#3 ++ b) = .z) ∧
  ∀ (s : State) (b : Byte) (rest : List Request),
    step { s with pending := .op (0b000#3 ++ b) :: rest } = step { s with pending := .op 0x000#11 :: rest }

/-! ### The step -/

/-- A step takes the oldest operation issued, and runs the instruction it decodes to, or the view operation it is; with
nothing issued it does nothing (R33, R60, R107; that last clause is the model's reading, log 8, and `pending` is its own,
log 6). -/
def Obligations.StepRunsDecodedInstruction : Prop :=
  (∀ (s : State) (w : OpWord) (rest : List Request) (i : Instr), s.pending = .op w :: rest →
    decode s.context w = .ok i → step s = exec i { s with pending := rest }) ∧
  (∀ (s : State) (v : View) (rest : List Request), s.pending = .view v :: rest →
    step s = execView v { s with pending := rest }) ∧
  ∀ s : State, s.pending = [] → step s = .next s

/-- A powered TRANSFER in an illegal `pstate` encoding faults with it; no next state is picked (R276; that only such a
TRANSFER meets the encoding is the model's reading, log 12). -/
def Obligations.IllegalStateFaults : Prop :=
  ∀ (s : State) (w : OpWord), s.poweredOn = true → s.pstate.legal = false → nextIsTransfer s w →
    step s = .fault (.illegalState s.pstate)

/-- From a state that keeps the card's invariant, a step always answers, but for a reserved word and a view operation in
an open frame: no fault, and no other refusal (R103, R220; R88 and R64 for the two refusals). -/
def Obligations.StepAnswersFromEverySoundState : Prop :=
  ∀ s : State, CardInv s →
    (∃ t, step s = .next t) ∨
    (∃ w, s.pending.head? = some (.op w) ∧ isReservedWord w = true ∧ step s = .refused (.reservedOperation w)) ∨
    (∃ v, s.pending.head? = some (.view v) ∧ frameOpen s ∧ step s = .refused .viewDuringFrame)

/-- In no state at all does the step apply a row that is not selected: the model's own guard (log 9) is never met. -/
def Obligations.StepNeverAppliesUnselectedRow : Prop :=
  ∀ s : State, step s ≠ .refused .rowNotSelected

/-- Every powered TRANSFER answers with an `ack`; with `ack = 0` the card is in `IDLE`, with `ack = 1` it is not. An
unpowered one answers `ack = 0` and leaves `pstate` as it was (R104). -/
def Obligations.AckTellsWhetherTheFrameStaysOpen : Prop :=
  ∀ (s t : State) (w : OpWord), nextIsTransfer s w → step s = .next t →
    (s.poweredOn = true →
      ∃ (ack : Bool) (d : Tri), t.response = some (.transfer ack d) ∧ (ack = false ↔ t.pstate = PState.idle)) ∧
    (s.poweredOn = false → t.response = some (.transfer false .z) ∧ t.pstate = s.pstate)

/-- The order of the protocol states: a powered TRANSFER moves one step on in its sub-sequence, and leaves it only at its
last step, or at `READ(7)` with a poisoned address (R148), to `IDLE`; `IDLE` and `AWAIT_CMD` move as their tables say (R30,
R120 to R125). -/
def Obligations.ProtocolStateAdvancesOneStep : Prop :=
  ∀ (s t : State) (w : OpWord), s.poweredOn = true → s.pstate.legal = true → nextIsTransfer s w → step s = .next t →
    (s.pstate = PState.idle → t.pstate = PState.idle ∨ t.pstate = PState.awaitCmd) ∧
    (s.pstate = PState.awaitCmd →
      t.pstate = PState.idle ∨ t.pstate = PState.read 0 ∨ t.pstate = PState.write 0 ∨ t.pstate = PState.ident 0) ∧
    (∀ k, s.pstate = PState.read k →
      t.pstate = if k = 137#8 ∨ (k = 7#8 ∧ s.address = 0xFFFF#16) then PState.idle else PState.read (k + 1)) ∧
    (∀ k, s.pstate = PState.write k → t.pstate = if k = 135#8 then PState.idle else PState.write (k + 1)) ∧
    (∀ k, s.pstate = PState.ident k → t.pstate = if k = 7#8 then PState.idle else PState.ident (k + 1))

/-- The response byte of a TRANSFER never depends on that transfer's own input, and in a sub-sequence state the `ack` and
the next state do not either (R106). Two inputs `w` and `v`, the same card. -/
def Obligations.ResponseByteIgnoresItsOwnInput : Prop :=
  ∀ (s t u : State) (w v : OpWord) (rest : List Request),
    w.extractLsb' 9 2 = 0b00#2 → v.extractLsb' 9 2 = 0b00#2 →
    step { s with pending := .op w :: rest } = .next t → step { s with pending := .op v :: rest } = .next u →
    ∃ (a b : Bool) (d : Tri), t.response = some (.transfer a d) ∧ u.response = some (.transfer b d) ∧
      (s.pstate ≠ PState.idle → s.pstate ≠ PState.awaitCmd → a = b ∧ t.pstate = u.pstate)

/-- At an ignored position of a frame every input has the same effect, on state and outputs alike: the whole of identify,
and every read and write step but the address steps, the write's data steps and its checksum step (R85). -/
def Obligations.IgnoredInputHasNoEffect : Prop :=
  ∀ (s : State) (w v : OpWord) (rest : List Request), s.poweredOn = true →
    w.extractLsb' 9 2 = 0b00#2 → v.extractLsb' 9 2 = 0b00#2 →
    (s.pstate.tag = 0b100#3 ∨
      (s.pstate.tag = 0b010#3 ∧ s.pstate.step ≠ 2#8 ∧ s.pstate.step ≠ 3#8) ∨
      (s.pstate.tag = 0b011#3 ∧ (s.pstate.step.toNat < 2 ∨ 132 < s.pstate.step.toNat))) →
    step { s with pending := .op w :: rest } = step { s with pending := .op v :: rest }

/-! ### Who writes what -/

/-- `powered_on` and `flag` change only in POWER_ON and POWER_OFF: `flag` only in a POWER_ON of an unpowered card, which
sets 0x08; `powered_on` off to on only there, and on to off only in POWER_OFF (R21, R22). -/
def Obligations.OnlyPowerOperationsWriteFlagAndPower : Prop :=
  ∀ s t : State, step s = .next t →
    (t.flag ≠ s.flag → s.pending.head? = some (.op 0x200#11) ∧ s.poweredOn = false ∧ t.flag = 0x08#8) ∧
    (s.poweredOn = false → t.poweredOn = true → s.pending.head? = some (.op 0x200#11)) ∧
    (s.poweredOn = true → t.poweredOn = false → s.pending.head? = some (.op 0x400#11))

/-- Only POWER_ON of an unpowered card, which writes `IDLE`, and a TRANSFER on a powered card write `pstate` (R25). -/
def Obligations.OnlyPowerOnAndPoweredTransferWritePstate : Prop :=
  ∀ s t : State, step s = .next t → t.pstate ≠ s.pstate →
    (s.pending.head? = some (.op 0x200#11) ∧ s.poweredOn = false ∧ t.pstate = PState.idle) ∨
    (s.poweredOn = true ∧ ∃ w, nextIsTransfer s w)

/-- Only a data step of a write (or, under `AT_END`, its last step), on a valid sector, and a view write change a byte of
the store; and the write changes none outside its sector (R57). -/
def Obligations.OnlyWritesAndViewsChangeTheStore : Prop :=
  ∀ (s t : State) (a : Nat), CardInv s → step s = .next t → t.storage.read a ≠ s.storage.read a →
    (s.poweredOn = true ∧ (∃ w, nextIsTransfer s w) ∧ s.address ≠ 0xFFFF#16 ∧
      s.address.toNat * 128 ≤ a ∧ a < s.address.toNat * 128 + 128 ∧
      ((∃ k : BitVec 8, s.pstate = PState.write k ∧ 4 ≤ k.toNat ∧ k.toNat ≤ 131 ∧ s.writeCommit ≠ .atEnd) ∨
        (s.pstate = PState.write 135#8 ∧ s.writeCommit = .atEnd))) ∨
    (∃ (n : BitVec 10) (i : BitVec 7) (v : Byte), s.pending.head? = some (.view (.writeSector n i v)) ∧
      a = n.toNat * 128 + i.toNat ∧ t.storage.read a = v) ∨
    (∃ (b : BitVec 4) (j : BitVec 13) (v : Byte), s.pending.head? = some (.view (.writeBlock b j v)) ∧
      a = b.toNat * 8192 + j.toNat ∧ t.storage.read a = v)

/-- No step changes the open parameter `WRITE_COMMIT` (R7; log 5: the model holds it in the state). -/
def Obligations.WriteCommitIsFixed : Prop :=
  ∀ s t : State, step s = .next t → t.writeCommit = s.writeCommit

/-! ### The storage port and creation -/

/-- The four view operations. Where they are admitted, on an unpowered card or in `IDLE`, a read gives its byte and
changes nothing, a write changes its byte only, and no register is changed; during an open frame each is refused (R64).
That a view write leaves no output in `response` is the model's choice (log 7). -/
def Obligations.ViewsReachTheirByteOrAreRefused : Prop :=
  ∀ s : State,
    ((s.poweredOn = false ∨ s.pstate = PState.idle) →
      (∀ (n : BitVec 10) (i : BitVec 7), execView (.readSector n i) s =
        .next { s with response := some (.viewed (s.storage.read (n.toNat * 128 + i.toNat))) }) ∧
      (∀ (b : BitVec 4) (j : BitVec 13), execView (.readBlock b j) s =
        .next { s with response := some (.viewed (s.storage.read (b.toNat * 8192 + j.toNat))) }) ∧
      (s.storage.wf = true → ∀ (n : BitVec 10) (i : BitVec 7) (v : Byte), ∃ m : Memory,
        execView (.writeSector n i v) s = .next { s with storage := m, response := none } ∧ m.wf = true ∧
        m.read (n.toNat * 128 + i.toNat) = v ∧ ∀ a, a ≠ n.toNat * 128 + i.toNat → m.read a = s.storage.read a) ∧
      (s.storage.wf = true → ∀ (b : BitVec 4) (j : BitVec 13) (v : Byte), ∃ m : Memory,
        execView (.writeBlock b j v) s = .next { s with storage := m, response := none } ∧ m.wf = true ∧
        m.read (b.toNat * 8192 + j.toNat) = v ∧ ∀ a, a ≠ b.toNat * 8192 + j.toNat → m.read a = s.storage.read a)) ∧
    (frameOpen s → ∀ v : View, execView v s = .refused .viewDuringFrame)

/-- Creation from a caller's array: refused at any other length than 131072; else an unpowered card whose store holds the
array, byte for byte (R270). -/
def Obligations.CreationCopiesTheArray : Prop :=
  ∀ (commit : Config.WriteCommit) (data : List Byte),
    (data.length ≠ 131072 → State.create commit data = .refused (.initStorageLength data.length)) ∧
    (data.length = 131072 → ∃ s, State.create commit data = .next s ∧ s.poweredOn = false ∧
      s.writeCommit = commit ∧ s.storage.wf = true ∧ ∀ (a : Nat) (h : a < data.length), s.storage.read a = data[a])

/-! ### Reset and the invariants -/

/-- The card at creation: unpowered, with an all-zero store (R270, the values the source gives). The other registers'
values there are the spec's model values (logs 1, 2, 3) and are not stated here. -/
def Obligations.CreatedCardIsUnpoweredAndZero : Prop :=
  State.reset.poweredOn = false ∧ ∀ a < 131072, State.reset.storage.read a = 0x00#8

/-- The card at creation keeps the card's invariant and the frame's. -/
def Obligations.ResetMeetsTheInvariants : Prop := CardInv State.reset ∧ FrameInv State.reset

/-- Every step keeps the card's invariant: `pstate` legal, `flag` = 0x08 while powered, the address and counter registers
as R26 and R28 say, the store canonical (R22 to R28). -/
def Obligations.StepKeepsCardInv : Prop :=
  ∀ s t : State, CardInv s → step s = .next t → CardInv t

/-- Every step keeps the meaning of the checksum and of the committed data (R152, R175, R182). -/
def Obligations.StepKeepsFrameInv : Prop :=
  ∀ s t : State, CardInv s → FrameInv s → step s = .next t → FrameInv t

/-- The byte a read answers at step 136 is the XOR of the address bytes and all 128 data bytes of the sector (R152). -/
def Obligations.ReadChecksumCoversTheSector : Prop :=
  ∀ (s t : State) (w : OpWord), CardInv s → FrameInv s → s.poweredOn = true → s.pstate = PState.read 136 →
    nextIsTransfer s w → step s = .next t →
    t.response = some (.transfer true (.byte
      (s.address.extractLsb' 8 8 ^^^ s.address.extractLsb' 0 8 ^^^
        xorUpTo (fun j => s.storage.read (s.address.toNat * 128 + j)) 128)))

/-- After the host's checksum of a write to a valid sector, the verdict is good exactly when the host's byte is the XOR of
the address bytes and the 128 data bytes received, and bad checksum otherwise (R175, R176, R178). -/
def Obligations.WriteVerdictComparesTheChecksum : Prop :=
  ∀ (s t : State) (w : OpWord), CardInv s → FrameInv s → s.poweredOn = true → s.pstate = PState.write 132 →
    s.address ≠ 0xFFFF#16 → nextIsTransfer s w → step s = .next t →
    verdict t.address t.checksum =
      if conc (triField w) = s.address.extractLsb' 8 8 ^^^ s.address.extractLsb' 0 8 ^^^ xorUpTo (receivedByte s) 128
      then 0x47#8 else 0x4E#8

/-- What a whole write frame leaves in the store, in terms of the words `ws` the host issues after the command, whatever
the checksum and whatever `WRITE_COMMIT` (R183, with R80, R144, R174, R177, R181, R182). For a valid sector, byte `j` of the
sector is the byte sent at step `4 + j` and every offset outside the sector is as before the frame; for any other sector
number the store is as before. -/
def Obligations.CompletedWriteStoresItsData : Prop :=
  ∀ (s : State) (ws : List OpWord) (rest : List Request), CardInv s → s.poweredOn = true → s.pstate = PState.idle →
    ws.length = 136 → (∀ w ∈ ws, w.extractLsb' 9 2 = 0b00#2) →
    s.pending = (0x181#11 :: 0x157#11 :: ws).map Request.op ++ rest →
    ∃ t, steps 138 s = .next t ∧
      (if (sentByte ws 2 ++ sentByte ws 3).toNat ≤ 0x3FF then
        (∀ j < 128, t.storage.read ((sentByte ws 2 ++ sentByte ws 3).toNat * 128 + j) = sentByte ws (4 + j)) ∧
        ∀ a, (a < (sentByte ws 2 ++ sentByte ws 3).toNat * 128 ∨
            (sentByte ws 2 ++ sentByte ws 3).toNat * 128 + 128 ≤ a) →
          t.storage.read a = s.storage.read a
       else t.storage = s.storage)

/-- The three values of `WRITE_COMMIT` agree: given the same operations, two cards that differ in it alone answer alike,
and their stores agree but for data that still waits in a buffer, for as long as the host does not power the card off
while data waits. In particular the stores agree whenever no write frame is open (R182). -/
def Obligations.WriteCommitValuesAgree : Prop :=
  ∀ s t s' : State, CardInv s → CardInv t → SameButCommit s t →
    ¬(dataWaits t ∧ t.pending.head? = some (.op 0x400#11)) → step s = .next s' →
    ∃ t', step t = .next t' ∧ SameButCommit s' t'

/-- A host that sends `Z` reaches the end of the open frame, the first TRANSFER with `ack = 0` and `IDLE`, within 136
transfers, from every powered state (R282). -/
def Obligations.DrainReachesIdle : Prop :=
  ∀ s : State, CardInv s → s.poweredOn = true →
    ∃ k, 1 ≤ k ∧ k ≤ 136 ∧
      (∃ t d, steps k { s with pending := List.replicate 136 (.op 0x000#11) } = .next t ∧
        t.response = some (.transfer false d) ∧ t.pstate = PState.idle) ∧
      ∀ j, 1 ≤ j → j < k → ∃ t d, steps j { s with pending := List.replicate 136 (.op 0x000#11) } = .next t ∧
        t.response = some (.transfer true d)

/-- A POWER_OFF and then a POWER_ON put every card back in `IDLE` with `flag` = 0x08, powered, and leave the store as it
was, whatever state it was in (R272). -/
def Obligations.PowerCycleReturnsToIdle : Prop :=
  ∀ (s : State) (rest : List Request), s.pending = .op 0x400#11 :: .op 0x200#11 :: rest →
    steps 2 s = .next { s with
      poweredOn := true, flag := 0x08#8, pstate := PState.idle, pending := rest, response := some (.power true) }

/-! ### Whole frames -/

/-- A read frame, whatever the host sends at its ignored positions: 140 transfers for a valid sector and 10 for a bad one,
with `ack = 1` on all but the last; the store and `flag` are the same throughout (R153). The words `ws` are those after the
command; those at 2 and 3 are the address bytes. -/
def Obligations.ReadFrameHasItsFullLength : Prop :=
  ∀ (s : State) (ws : List OpWord) (msb lsb : OpWord) (rest : List Request), CardInv s → s.poweredOn = true →
    s.pstate = PState.idle → ws.length = 138 → (∀ w ∈ ws, w.extractLsb' 9 2 = 0b00#2) →
    ws[2]? = some msb → ws[3]? = some lsb →
    s.pending = (0x181#11 :: 0x152#11 :: ws).map Request.op ++ rest →
    ∃ len, len = (if (conc (triField msb) ++ conc (triField lsb)).toNat ≤ 0x3FF then 140 else 10) ∧
      (∀ j, 1 ≤ j → j < len → ∃ t d, steps j s = .next t ∧ t.response = some (.transfer true d) ∧
        t.storage = s.storage ∧ t.flag = s.flag) ∧
      ∃ t d, steps len s = .next t ∧ t.response = some (.transfer false d) ∧ t.pstate = PState.idle ∧
        t.storage = s.storage ∧ t.flag = s.flag

/-- A write frame: 138 transfers with `ack = 1` on the first 137, whatever the sector, the data and the checksum; `flag` is
the same throughout (R184). -/
def Obligations.WriteFrameHasItsFullLength : Prop :=
  ∀ (s : State) (ws : List OpWord) (rest : List Request), CardInv s → s.poweredOn = true → s.pstate = PState.idle →
    ws.length = 136 → (∀ w ∈ ws, w.extractLsb' 9 2 = 0b00#2) →
    s.pending = (0x181#11 :: 0x157#11 :: ws).map Request.op ++ rest →
    (∀ j, 1 ≤ j → j < 138 → ∃ t d, steps j s = .next t ∧ t.response = some (.transfer true d) ∧ t.flag = s.flag) ∧
    ∃ t d, steps 138 s = .next t ∧ t.response = some (.transfer false d) ∧ t.pstate = PState.idle ∧ t.flag = s.flag

/-- What a whole write frame answers last, in terms of the words `ws` the host issues after the command: bad sector for a
sector number above 0x03FF, else good exactly when the byte sent at step 132 is the XOR of the two address bytes and the 128
data bytes sent, else bad checksum (R175, R176, R178, R181). -/
def Obligations.WriteFrameAnswersItsVerdict : Prop :=
  ∀ (s : State) (ws : List OpWord) (rest : List Request), CardInv s → s.poweredOn = true → s.pstate = PState.idle →
    ws.length = 136 → (∀ w ∈ ws, w.extractLsb' 9 2 = 0b00#2) →
    s.pending = (0x181#11 :: 0x157#11 :: ws).map Request.op ++ rest →
    ∃ t, steps 138 s = .next t ∧ t.response = some (.transfer false (.byte
      (if 0x3FF < (sentByte ws 2 ++ sentByte ws 3).toNat then 0xFF#8
       else if sentByte ws 132 = sentByte ws 2 ^^^ sentByte ws 3 ^^^ xorUpTo (fun j => sentByte ws (4 + j)) 128
       then 0x47#8 else 0x4E#8)))

/-! ### The slot (host side) -/

/-- The slots' rule is kept by inserting, removing and transferring: a card in a slot is powered and in no other slot
(R240, R248). Host side, outside the block (log 15). -/
def Obligations.SlotRoutinesKeepSlotInv : Prop :=
  ∀ w : World, SlotInv w →
    (∀ k c w' ok, insertCard k c w = .next (w', ok) → SlotInv w') ∧
    (∀ k w' ok, removeCard k w = .next (w', ok) → SlotInv w') ∧
    ∀ k cmd w' r, slotTransfer k cmd w = .next (w', r) → SlotInv w'

/-- A powered card cannot be inserted into a second slot: the answer is false and every slot stays as it is (R241,
R248). Host side, outside the block (log 15). -/
def Obligations.PoweredCardCannotBeInserted : Prop :=
  ∀ (w : World) (k c : Nat) (s : State), w.cards[c]? = some s → s.poweredOn = true →
    ∃ w', insertCard k c w = .next (w', false) ∧ w'.slots = w.slots
end

