-- ==== Sys2Proof/Laws/Decode.lean ====
section
/-!
SUPPORT. What the decoder's tables can select, said once for each protocol state (40_power_and_transfer.md R103).
-/

set_option Elab.async false

namespace Sys2Proof

open Machine

/-- A step range, as a proposition. -/
@[simp] theorem Machine.PState.stepIn_iff (p : PState) (lo hi : Nat) :
    p.stepIn lo hi = true ↔ lo ≤ p.step.toNat ∧ p.step.toNat ≤ hi := by
  simp [PState.stepIn]

/-- A TRANSFER word is read by the power state and `pstate` alone (30_encoding.md R71, R83). -/
theorem decode_transfer (c : Context) (w : OpWord) (h : opField w = 0b00#2) :
    decode c w = transferRow c (triField w) := by
  simp [decode, isReservedWord, h]

/-- The tri-state byte of a TRANSFER word is the one it was written from (30_encoding.md R72, R91). -/
theorem triField_xferWord (cmd : Tri) : triField (xferWord cmd) = cmd := by
  cases cmd with
  | z => decide
  | byte b => revert b; decide

/-- The words of 30_encoding.md R91 are TRANSFER words. -/
theorem opField_xferWord (cmd : Tri) : opField (xferWord cmd) = 0b00#2 := by
  cases cmd with
  | z => decide
  | byte b => revert b; decide

/-- What the `READ(s)` table can select, row by row. -/
theorem readRow_eq_some (s : BitVec 8) (cmd : Tri) (i : Instr) (h : readRow s cmd = some i) :
      (s = 0 ∧ i = .readId0 cmd) ∨
      (s = 1 ∧ i = .readId1 cmd) ∨
      (s = 2 ∧ i = .readAddrMsb cmd) ∨
      (s = 3 ∧ i = .readAddrLsb cmd) ∨
      (s = 4 ∧ i = .readAck0 cmd) ∨
      (s = 5 ∧ i = .readAck1 cmd) ∨
      (s = 6 ∧ i = .readEchoMsb cmd) ∨
      (s = 7 ∧ i = .readEchoLsb cmd) ∨
      ((8 ≤ s.toNat ∧ s.toNat ≤ 135) ∧ i = .readData cmd) ∨
      (s = 136 ∧ i = .readChecksum cmd) ∨
      (s = 137 ∧ i = .readStatus cmd) := by
  unfold readRow at h
  by_cases h0 : s = 0
  · rw [if_pos h0] at h
    exact Or.inl ⟨h0, (Option.some.inj h).symm⟩
  rw [if_neg h0] at h
  by_cases h1 : s = 1
  · rw [if_pos h1] at h
    exact Or.inr <| Or.inl ⟨h1, (Option.some.inj h).symm⟩
  rw [if_neg h1] at h
  by_cases h2 : s = 2
  · rw [if_pos h2] at h
    exact Or.inr <| Or.inr <| Or.inl ⟨h2, (Option.some.inj h).symm⟩
  rw [if_neg h2] at h
  by_cases h3 : s = 3
  · rw [if_pos h3] at h
    exact Or.inr <| Or.inr <| Or.inr <| Or.inl ⟨h3, (Option.some.inj h).symm⟩
  rw [if_neg h3] at h
  by_cases h4 : s = 4
  · rw [if_pos h4] at h
    exact Or.inr <| Or.inr <| Or.inr <| Or.inr <| Or.inl ⟨h4, (Option.some.inj h).symm⟩
  rw [if_neg h4] at h
  by_cases h5 : s = 5
  · rw [if_pos h5] at h
    exact Or.inr <| Or.inr <| Or.inr <| Or.inr <| Or.inr <| Or.inl ⟨h5, (Option.some.inj h).symm⟩
  rw [if_neg h5] at h
  by_cases h6 : s = 6
  · rw [if_pos h6] at h
    exact Or.inr <| Or.inr <| Or.inr <| Or.inr <| Or.inr <| Or.inr <| Or.inl ⟨h6, (Option.some.inj h).symm⟩
  rw [if_neg h6] at h
  by_cases h7 : s = 7
  · rw [if_pos h7] at h
    exact Or.inr <| Or.inr <| Or.inr <| Or.inr <| Or.inr <| Or.inr <| Or.inr <| Or.inl ⟨h7, (Option.some.inj h).symm⟩
  rw [if_neg h7] at h
  by_cases h8 : s.toNat ≤ 135
  · rw [if_pos h8] at h
    have g0 : s.toNat ≠ 0 := fun e => h0 (BitVec.eq_of_toNat_eq e)
    have g1 : s.toNat ≠ 1 := fun e => h1 (BitVec.eq_of_toNat_eq e)
    have g2 : s.toNat ≠ 2 := fun e => h2 (BitVec.eq_of_toNat_eq e)
    have g3 : s.toNat ≠ 3 := fun e => h3 (BitVec.eq_of_toNat_eq e)
    have g4 : s.toNat ≠ 4 := fun e => h4 (BitVec.eq_of_toNat_eq e)
    have g5 : s.toNat ≠ 5 := fun e => h5 (BitVec.eq_of_toNat_eq e)
    have g6 : s.toNat ≠ 6 := fun e => h6 (BitVec.eq_of_toNat_eq e)
    have g7 : s.toNat ≠ 7 := fun e => h7 (BitVec.eq_of_toNat_eq e)
    exact Or.inr <| Or.inr <| Or.inr <| Or.inr <| Or.inr <| Or.inr <| Or.inr <| Or.inr <| Or.inl ⟨⟨by omega, h8⟩, (Option.some.inj h).symm⟩
  rw [if_neg h8] at h
  by_cases h9 : s = 136
  · rw [if_pos h9] at h
    exact Or.inr <| Or.inr <| Or.inr <| Or.inr <| Or.inr <| Or.inr <| Or.inr <| Or.inr <| Or.inr <| Or.inl ⟨h9, (Option.some.inj h).symm⟩
  rw [if_neg h9] at h
  by_cases h10 : s = 137
  · rw [if_pos h10] at h
    exact Or.inr <| Or.inr <| Or.inr <| Or.inr <| Or.inr <| Or.inr <| Or.inr <| Or.inr <| Or.inr <| Or.inr <| ⟨h10, (Option.some.inj h).symm⟩
  rw [if_neg h10] at h
  exact absurd h (by simp)

/-- What the `WRITE(s)` table can select, row by row. -/
theorem writeRow_eq_some (s : BitVec 8) (cmd : Tri) (i : Instr) (h : writeRow s cmd = some i) :
      (s = 0 ∧ i = .writeId0 cmd) ∨
      (s = 1 ∧ i = .writeId1 cmd) ∨
      (s = 2 ∧ i = .writeAddrMsb cmd) ∨
      (s = 3 ∧ i = .writeAddrLsb cmd) ∨
      ((4 ≤ s.toNat ∧ s.toNat ≤ 131) ∧ i = .writeData cmd) ∨
      (s = 132 ∧ i = .writeChecksum cmd) ∨
      (s = 133 ∧ i = .writeAck0 cmd) ∨
      (s = 134 ∧ i = .writeAck1 cmd) ∨
      (s = 135 ∧ i = .writeStatus cmd) := by
  unfold writeRow at h
  by_cases h0 : s = 0
  · rw [if_pos h0] at h
    exact Or.inl ⟨h0, (Option.some.inj h).symm⟩
  rw [if_neg h0] at h
  by_cases h1 : s = 1
  · rw [if_pos h1] at h
    exact Or.inr <| Or.inl ⟨h1, (Option.some.inj h).symm⟩
  rw [if_neg h1] at h
  by_cases h2 : s = 2
  · rw [if_pos h2] at h
    exact Or.inr <| Or.inr <| Or.inl ⟨h2, (Option.some.inj h).symm⟩
  rw [if_neg h2] at h
  by_cases h3 : s = 3
  · rw [if_pos h3] at h
    exact Or.inr <| Or.inr <| Or.inr <| Or.inl ⟨h3, (Option.some.inj h).symm⟩
  rw [if_neg h3] at h
  by_cases h4 : s.toNat ≤ 131
  · rw [if_pos h4] at h
    have g0 : s.toNat ≠ 0 := fun e => h0 (BitVec.eq_of_toNat_eq e)
    have g1 : s.toNat ≠ 1 := fun e => h1 (BitVec.eq_of_toNat_eq e)
    have g2 : s.toNat ≠ 2 := fun e => h2 (BitVec.eq_of_toNat_eq e)
    have g3 : s.toNat ≠ 3 := fun e => h3 (BitVec.eq_of_toNat_eq e)
    exact Or.inr <| Or.inr <| Or.inr <| Or.inr <| Or.inl ⟨⟨by omega, h4⟩, (Option.some.inj h).symm⟩
  rw [if_neg h4] at h
  by_cases h5 : s = 132
  · rw [if_pos h5] at h
    exact Or.inr <| Or.inr <| Or.inr <| Or.inr <| Or.inr <| Or.inl ⟨h5, (Option.some.inj h).symm⟩
  rw [if_neg h5] at h
  by_cases h6 : s = 133
  · rw [if_pos h6] at h
    exact Or.inr <| Or.inr <| Or.inr <| Or.inr <| Or.inr <| Or.inr <| Or.inl ⟨h6, (Option.some.inj h).symm⟩
  rw [if_neg h6] at h
  by_cases h7 : s = 134
  · rw [if_pos h7] at h
    exact Or.inr <| Or.inr <| Or.inr <| Or.inr <| Or.inr <| Or.inr <| Or.inr <| Or.inl ⟨h7, (Option.some.inj h).symm⟩
  rw [if_neg h7] at h
  by_cases h8 : s = 135
  · rw [if_pos h8] at h
    exact Or.inr <| Or.inr <| Or.inr <| Or.inr <| Or.inr <| Or.inr <| Or.inr <| Or.inr <| ⟨h8, (Option.some.inj h).symm⟩
  rw [if_neg h8] at h
  exact absurd h (by simp)

/-- What the `IDENT(s)` table can select, row by row. -/
theorem identRow_eq_some (s : BitVec 8) (cmd : Tri) (i : Instr) (h : identRow s cmd = some i) :
      (s = 0 ∧ i = .identStep0 cmd) ∨
      (s = 1 ∧ i = .identStep1 cmd) ∨
      (s = 2 ∧ i = .identStep2 cmd) ∨
      (s = 3 ∧ i = .identStep3 cmd) ∨
      (s = 4 ∧ i = .identStep4 cmd) ∨
      (s = 5 ∧ i = .identStep5 cmd) ∨
      (s = 6 ∧ i = .identStep6 cmd) ∨
      (s = 7 ∧ i = .identStep7 cmd) := by
  unfold identRow at h
  by_cases h0 : s = 0
  · rw [if_pos h0] at h
    exact Or.inl ⟨h0, (Option.some.inj h).symm⟩
  rw [if_neg h0] at h
  by_cases h1 : s = 1
  · rw [if_pos h1] at h
    exact Or.inr <| Or.inl ⟨h1, (Option.some.inj h).symm⟩
  rw [if_neg h1] at h
  by_cases h2 : s = 2
  · rw [if_pos h2] at h
    exact Or.inr <| Or.inr <| Or.inl ⟨h2, (Option.some.inj h).symm⟩
  rw [if_neg h2] at h
  by_cases h3 : s = 3
  · rw [if_pos h3] at h
    exact Or.inr <| Or.inr <| Or.inr <| Or.inl ⟨h3, (Option.some.inj h).symm⟩
  rw [if_neg h3] at h
  by_cases h4 : s = 4
  · rw [if_pos h4] at h
    exact Or.inr <| Or.inr <| Or.inr <| Or.inr <| Or.inl ⟨h4, (Option.some.inj h).symm⟩
  rw [if_neg h4] at h
  by_cases h5 : s = 5
  · rw [if_pos h5] at h
    exact Or.inr <| Or.inr <| Or.inr <| Or.inr <| Or.inr <| Or.inl ⟨h5, (Option.some.inj h).symm⟩
  rw [if_neg h5] at h
  by_cases h6 : s = 6
  · rw [if_pos h6] at h
    exact Or.inr <| Or.inr <| Or.inr <| Or.inr <| Or.inr <| Or.inr <| Or.inl ⟨h6, (Option.some.inj h).symm⟩
  rw [if_neg h6] at h
  by_cases h7 : s = 7
  · rw [if_pos h7] at h
    exact Or.inr <| Or.inr <| Or.inr <| Or.inr <| Or.inr <| Or.inr <| Or.inr <| ⟨h7, (Option.some.inj h).symm⟩
  rw [if_neg h7] at h
  exact absurd h (by simp)

/-- What a powered TRANSFER can select, by protocol state. -/
theorem poweredRow_eq_some (p : PState) (cmd : Tri) (i : Instr) (h : poweredRow p cmd = some i) :
    (p = PState.idle ∧ i = idleRow cmd) ∨ (p = PState.awaitCmd ∧ i = awaitRow cmd) ∨
      (p = PState.read p.step ∧ readRow p.step cmd = some i) ∨
      (p = PState.write p.step ∧ writeRow p.step cmd = some i) ∨
      (p = PState.ident p.step ∧ identRow p.step cmd = some i) := by
  obtain ⟨tag, st⟩ := p
  unfold poweredRow at h
  by_cases h1 : (⟨tag, st⟩ : PState) = PState.idle
  · rw [if_pos h1] at h
    exact Or.inl ⟨h1, (Option.some.inj h).symm⟩
  rw [if_neg h1] at h
  by_cases h2 : (⟨tag, st⟩ : PState) = PState.awaitCmd
  · rw [if_pos h2] at h
    exact Or.inr <| Or.inl ⟨h2, (Option.some.inj h).symm⟩
  rw [if_neg h2] at h
  by_cases h3 : tag = 0b010#3
  · rw [if_pos h3] at h
    exact Or.inr <| Or.inr <| Or.inl ⟨by rw [h3], h⟩
  rw [if_neg h3] at h
  by_cases h4 : tag = 0b011#3
  · rw [if_pos h4] at h
    exact Or.inr <| Or.inr <| Or.inr <| Or.inl ⟨by rw [h4], h⟩
  rw [if_neg h4] at h
  by_cases h5 : tag = 0b100#3
  · rw [if_pos h5] at h
    exact Or.inr <| Or.inr <| Or.inr <| Or.inr ⟨by rw [h5], h⟩
  rw [if_neg h5] at h
  exact absurd h (by simp)

end Sys2Proof
end

