-- ==== Sys2Proof/Laws/State.lean ====
section
/-!
SUPPORT. One lemma per field per update of the state (Machine/Ops.lean), so that no proof unfolds a record update.
-/

set_option Elab.async false

namespace Sys2Proof.Machine

variable (s : State)

@[simp] theorem State.setPoweredOn_poweredOn (v : Bool) : (s.setPoweredOn v).poweredOn = v := rfl
@[simp] theorem State.setPoweredOn_flag (v : Bool) : (s.setPoweredOn v).flag = s.flag := rfl
@[simp] theorem State.setPoweredOn_pstate (v : Bool) : (s.setPoweredOn v).pstate = s.pstate := rfl
@[simp] theorem State.setPoweredOn_address (v : Bool) : (s.setPoweredOn v).address = s.address := rfl
@[simp] theorem State.setPoweredOn_checksum (v : Bool) : (s.setPoweredOn v).checksum = s.checksum := rfl
@[simp] theorem State.setPoweredOn_byteCounter (v : Bool) : (s.setPoweredOn v).byteCounter = s.byteCounter := rfl
@[simp] theorem State.setPoweredOn_storage (v : Bool) : (s.setPoweredOn v).storage = s.storage := rfl
@[simp] theorem State.setPoweredOn_wbuf (v : Bool) : (s.setPoweredOn v).wbuf = s.wbuf := rfl
@[simp] theorem State.setPoweredOn_writeCommit (v : Bool) : (s.setPoweredOn v).writeCommit = s.writeCommit := rfl
@[simp] theorem State.setPoweredOn_pending (v : Bool) : (s.setPoweredOn v).pending = s.pending := rfl
@[simp] theorem State.setPoweredOn_response (v : Bool) : (s.setPoweredOn v).response = s.response := rfl

@[simp] theorem State.setFlag_poweredOn (v : Byte) : (s.setFlag v).poweredOn = s.poweredOn := rfl
@[simp] theorem State.setFlag_flag (v : Byte) : (s.setFlag v).flag = v := rfl
@[simp] theorem State.setFlag_pstate (v : Byte) : (s.setFlag v).pstate = s.pstate := rfl
@[simp] theorem State.setFlag_address (v : Byte) : (s.setFlag v).address = s.address := rfl
@[simp] theorem State.setFlag_checksum (v : Byte) : (s.setFlag v).checksum = s.checksum := rfl
@[simp] theorem State.setFlag_byteCounter (v : Byte) : (s.setFlag v).byteCounter = s.byteCounter := rfl
@[simp] theorem State.setFlag_storage (v : Byte) : (s.setFlag v).storage = s.storage := rfl
@[simp] theorem State.setFlag_wbuf (v : Byte) : (s.setFlag v).wbuf = s.wbuf := rfl
@[simp] theorem State.setFlag_writeCommit (v : Byte) : (s.setFlag v).writeCommit = s.writeCommit := rfl
@[simp] theorem State.setFlag_pending (v : Byte) : (s.setFlag v).pending = s.pending := rfl
@[simp] theorem State.setFlag_response (v : Byte) : (s.setFlag v).response = s.response := rfl

@[simp] theorem State.setPstate_poweredOn (v : PState) : (s.setPstate v).poweredOn = s.poweredOn := rfl
@[simp] theorem State.setPstate_flag (v : PState) : (s.setPstate v).flag = s.flag := rfl
@[simp] theorem State.setPstate_pstate (v : PState) : (s.setPstate v).pstate = v := rfl
@[simp] theorem State.setPstate_address (v : PState) : (s.setPstate v).address = s.address := rfl
@[simp] theorem State.setPstate_checksum (v : PState) : (s.setPstate v).checksum = s.checksum := rfl
@[simp] theorem State.setPstate_byteCounter (v : PState) : (s.setPstate v).byteCounter = s.byteCounter := rfl
@[simp] theorem State.setPstate_storage (v : PState) : (s.setPstate v).storage = s.storage := rfl
@[simp] theorem State.setPstate_wbuf (v : PState) : (s.setPstate v).wbuf = s.wbuf := rfl
@[simp] theorem State.setPstate_writeCommit (v : PState) : (s.setPstate v).writeCommit = s.writeCommit := rfl
@[simp] theorem State.setPstate_pending (v : PState) : (s.setPstate v).pending = s.pending := rfl
@[simp] theorem State.setPstate_response (v : PState) : (s.setPstate v).response = s.response := rfl

@[simp] theorem State.setAddress_poweredOn (v : BitVec 16) : (s.setAddress v).poweredOn = s.poweredOn := rfl
@[simp] theorem State.setAddress_flag (v : BitVec 16) : (s.setAddress v).flag = s.flag := rfl
@[simp] theorem State.setAddress_pstate (v : BitVec 16) : (s.setAddress v).pstate = s.pstate := rfl
@[simp] theorem State.setAddress_address (v : BitVec 16) : (s.setAddress v).address = v := rfl
@[simp] theorem State.setAddress_checksum (v : BitVec 16) : (s.setAddress v).checksum = s.checksum := rfl
@[simp] theorem State.setAddress_byteCounter (v : BitVec 16) : (s.setAddress v).byteCounter = s.byteCounter := rfl
@[simp] theorem State.setAddress_storage (v : BitVec 16) : (s.setAddress v).storage = s.storage := rfl
@[simp] theorem State.setAddress_wbuf (v : BitVec 16) : (s.setAddress v).wbuf = s.wbuf := rfl
@[simp] theorem State.setAddress_writeCommit (v : BitVec 16) : (s.setAddress v).writeCommit = s.writeCommit := rfl
@[simp] theorem State.setAddress_pending (v : BitVec 16) : (s.setAddress v).pending = s.pending := rfl
@[simp] theorem State.setAddress_response (v : BitVec 16) : (s.setAddress v).response = s.response := rfl

@[simp] theorem State.setChecksum_poweredOn (v : Byte) : (s.setChecksum v).poweredOn = s.poweredOn := rfl
@[simp] theorem State.setChecksum_flag (v : Byte) : (s.setChecksum v).flag = s.flag := rfl
@[simp] theorem State.setChecksum_pstate (v : Byte) : (s.setChecksum v).pstate = s.pstate := rfl
@[simp] theorem State.setChecksum_address (v : Byte) : (s.setChecksum v).address = s.address := rfl
@[simp] theorem State.setChecksum_checksum (v : Byte) : (s.setChecksum v).checksum = v := rfl
@[simp] theorem State.setChecksum_byteCounter (v : Byte) : (s.setChecksum v).byteCounter = s.byteCounter := rfl
@[simp] theorem State.setChecksum_storage (v : Byte) : (s.setChecksum v).storage = s.storage := rfl
@[simp] theorem State.setChecksum_wbuf (v : Byte) : (s.setChecksum v).wbuf = s.wbuf := rfl
@[simp] theorem State.setChecksum_writeCommit (v : Byte) : (s.setChecksum v).writeCommit = s.writeCommit := rfl
@[simp] theorem State.setChecksum_pending (v : Byte) : (s.setChecksum v).pending = s.pending := rfl
@[simp] theorem State.setChecksum_response (v : Byte) : (s.setChecksum v).response = s.response := rfl

@[simp] theorem State.setByteCounter_poweredOn (v : BitVec 8) : (s.setByteCounter v).poweredOn = s.poweredOn := rfl
@[simp] theorem State.setByteCounter_flag (v : BitVec 8) : (s.setByteCounter v).flag = s.flag := rfl
@[simp] theorem State.setByteCounter_pstate (v : BitVec 8) : (s.setByteCounter v).pstate = s.pstate := rfl
@[simp] theorem State.setByteCounter_address (v : BitVec 8) : (s.setByteCounter v).address = s.address := rfl
@[simp] theorem State.setByteCounter_checksum (v : BitVec 8) : (s.setByteCounter v).checksum = s.checksum := rfl
@[simp] theorem State.setByteCounter_byteCounter (v : BitVec 8) : (s.setByteCounter v).byteCounter = v := rfl
@[simp] theorem State.setByteCounter_storage (v : BitVec 8) : (s.setByteCounter v).storage = s.storage := rfl
@[simp] theorem State.setByteCounter_wbuf (v : BitVec 8) : (s.setByteCounter v).wbuf = s.wbuf := rfl
@[simp] theorem State.setByteCounter_writeCommit (v : BitVec 8) : (s.setByteCounter v).writeCommit = s.writeCommit := rfl
@[simp] theorem State.setByteCounter_pending (v : BitVec 8) : (s.setByteCounter v).pending = s.pending := rfl
@[simp] theorem State.setByteCounter_response (v : BitVec 8) : (s.setByteCounter v).response = s.response := rfl

@[simp] theorem State.setStorage_poweredOn (v : Memory) : (s.setStorage v).poweredOn = s.poweredOn := rfl
@[simp] theorem State.setStorage_flag (v : Memory) : (s.setStorage v).flag = s.flag := rfl
@[simp] theorem State.setStorage_pstate (v : Memory) : (s.setStorage v).pstate = s.pstate := rfl
@[simp] theorem State.setStorage_address (v : Memory) : (s.setStorage v).address = s.address := rfl
@[simp] theorem State.setStorage_checksum (v : Memory) : (s.setStorage v).checksum = s.checksum := rfl
@[simp] theorem State.setStorage_byteCounter (v : Memory) : (s.setStorage v).byteCounter = s.byteCounter := rfl
@[simp] theorem State.setStorage_storage (v : Memory) : (s.setStorage v).storage = v := rfl
@[simp] theorem State.setStorage_wbuf (v : Memory) : (s.setStorage v).wbuf = s.wbuf := rfl
@[simp] theorem State.setStorage_writeCommit (v : Memory) : (s.setStorage v).writeCommit = s.writeCommit := rfl
@[simp] theorem State.setStorage_pending (v : Memory) : (s.setStorage v).pending = s.pending := rfl
@[simp] theorem State.setStorage_response (v : Memory) : (s.setStorage v).response = s.response := rfl

@[simp] theorem State.setWbuf_poweredOn (v : Vector Byte 128) : (s.setWbuf v).poweredOn = s.poweredOn := rfl
@[simp] theorem State.setWbuf_flag (v : Vector Byte 128) : (s.setWbuf v).flag = s.flag := rfl
@[simp] theorem State.setWbuf_pstate (v : Vector Byte 128) : (s.setWbuf v).pstate = s.pstate := rfl
@[simp] theorem State.setWbuf_address (v : Vector Byte 128) : (s.setWbuf v).address = s.address := rfl
@[simp] theorem State.setWbuf_checksum (v : Vector Byte 128) : (s.setWbuf v).checksum = s.checksum := rfl
@[simp] theorem State.setWbuf_byteCounter (v : Vector Byte 128) : (s.setWbuf v).byteCounter = s.byteCounter := rfl
@[simp] theorem State.setWbuf_storage (v : Vector Byte 128) : (s.setWbuf v).storage = s.storage := rfl
@[simp] theorem State.setWbuf_wbuf (v : Vector Byte 128) : (s.setWbuf v).wbuf = v := rfl
@[simp] theorem State.setWbuf_writeCommit (v : Vector Byte 128) : (s.setWbuf v).writeCommit = s.writeCommit := rfl
@[simp] theorem State.setWbuf_pending (v : Vector Byte 128) : (s.setWbuf v).pending = s.pending := rfl
@[simp] theorem State.setWbuf_response (v : Vector Byte 128) : (s.setWbuf v).response = s.response := rfl

@[simp] theorem State.setPending_poweredOn (v : List Request) : (s.setPending v).poweredOn = s.poweredOn := rfl
@[simp] theorem State.setPending_flag (v : List Request) : (s.setPending v).flag = s.flag := rfl
@[simp] theorem State.setPending_pstate (v : List Request) : (s.setPending v).pstate = s.pstate := rfl
@[simp] theorem State.setPending_address (v : List Request) : (s.setPending v).address = s.address := rfl
@[simp] theorem State.setPending_checksum (v : List Request) : (s.setPending v).checksum = s.checksum := rfl
@[simp] theorem State.setPending_byteCounter (v : List Request) : (s.setPending v).byteCounter = s.byteCounter := rfl
@[simp] theorem State.setPending_storage (v : List Request) : (s.setPending v).storage = s.storage := rfl
@[simp] theorem State.setPending_wbuf (v : List Request) : (s.setPending v).wbuf = s.wbuf := rfl
@[simp] theorem State.setPending_writeCommit (v : List Request) : (s.setPending v).writeCommit = s.writeCommit := rfl
@[simp] theorem State.setPending_pending (v : List Request) : (s.setPending v).pending = v := rfl
@[simp] theorem State.setPending_response (v : List Request) : (s.setPending v).response = s.response := rfl

@[simp] theorem State.setResponse_poweredOn (v : Option Response) : (s.setResponse v).poweredOn = s.poweredOn := rfl
@[simp] theorem State.setResponse_flag (v : Option Response) : (s.setResponse v).flag = s.flag := rfl
@[simp] theorem State.setResponse_pstate (v : Option Response) : (s.setResponse v).pstate = s.pstate := rfl
@[simp] theorem State.setResponse_address (v : Option Response) : (s.setResponse v).address = s.address := rfl
@[simp] theorem State.setResponse_checksum (v : Option Response) : (s.setResponse v).checksum = s.checksum := rfl
@[simp] theorem State.setResponse_byteCounter (v : Option Response) : (s.setResponse v).byteCounter = s.byteCounter := rfl
@[simp] theorem State.setResponse_storage (v : Option Response) : (s.setResponse v).storage = s.storage := rfl
@[simp] theorem State.setResponse_wbuf (v : Option Response) : (s.setResponse v).wbuf = s.wbuf := rfl
@[simp] theorem State.setResponse_writeCommit (v : Option Response) : (s.setResponse v).writeCommit = s.writeCommit := rfl
@[simp] theorem State.setResponse_pending (v : Option Response) : (s.setResponse v).pending = s.pending := rfl
@[simp] theorem State.setResponse_response (v : Option Response) : (s.setResponse v).response = v := rfl

@[simp] theorem State.context_poweredOn : s.context.poweredOn = s.poweredOn := rfl
@[simp] theorem State.context_pstate : s.context.pstate = s.pstate := rfl
@[simp] theorem State.setPending_context (v : List Request) : (s.setPending v).context = s.context := rfl

end Sys2Proof.Machine
end

