-- ==== Sys2Proof/Laws/Ops.lean ====
section
/-!
SUPPORT. What each shared operation can do, said once: if it answers a next state, then which one and under what
condition. The proofs cite these instead of unfolding the operations.
-/

set_option Elab.async false

namespace Sys2Proof.Machine

@[simp] theorem respond_eq (ack : Bool) (d : Tri) (s : State) :
    respond ack d s = .next (s.setResponse (some (.transfer ack d))) := rfl

@[simp] theorem giveResult_eq (b : Bool) (s : State) :
    giveResult b s = .next (s.setResponse (some (.power b))) := rfl

@[simp] theorem moveOn_eq (p : PState) (ack : Bool) (d : Tri) (s : State) :
    moveOn p ack d s = .next ((s.setPstate p).setResponse (some (.transfer ack d))) := rfl

@[simp] theorem whenRow_of (c : Prop) [Decidable c] (r : Result) (h : c) : whenRow c r = r := if_pos h

@[simp] theorem whenRow_of_not (c : Prop) [Decidable c] (r : Result) (h : ¬c) :
    whenRow c r = .refused .rowNotSelected := if_neg h

/-- A guarded rule answers only where its row is selected, and then what the rule answers. -/
theorem whenRow_eq_next (c : Prop) [Decidable c] (r : Result) (t : State) :
    whenRow c r = .next t ↔ c ∧ r = .next t := by
  unfold whenRow
  split <;> simp [*]

@[simp] theorem andThen_next (s : State) (f : State → Result) : andThen (.next s) f = f s := rfl

/-- A sequence answers only where both parts do. -/
theorem andThen_eq_next (r : Result) (f : State → Result) (t : State) :
    andThen r f = .next t ↔ ∃ s, r = .next s ∧ f s = .next t := by
  cases r <;> simp [andThen]

/-- A store read answers only inside the store, and then what the rule makes of the byte. -/
theorem memRead_eq_next (s : State) (k : Nat) (f : Byte → Result) (t : State) :
    memRead s k f = .next t ↔ k < Config.cardSize ∧ f (s.storage.read k) = .next t := by
  unfold memRead
  split <;> simp [*]

/-- A store write answers only inside the store, and changes the one byte. -/
theorem memWrite_eq_next (s : State) (k : Nat) (v : Byte) (t : State) :
    memWrite s k v = .next t ↔ k < Config.cardSize ∧ t = s.setStorage (s.storage.write k v) := by
  unfold memWrite
  split <;> simp [*, eq_comm]

/-- A write to the buffer answers only inside it, and changes the one byte. -/
theorem bufferByte_eq_next (s : State) (i : Nat) (v : Byte) (t : State) :
    bufferByte s i v = .next t ↔ i < Config.sectorSize ∧ t = s.setWbuf (s.wbuf.setIfInBounds i v) := by
  unfold bufferByte
  split <;> simp [*, eq_comm]

/-- A commit of the buffer answers only inside the store, and writes its 128 bytes. -/
theorem commitBuffer_eq_next (s : State) (base : Nat) (t : State) :
    commitBuffer s base = .next t ↔
      base + Config.sectorSize ≤ Config.cardSize ∧ t = s.setStorage (s.storage.writeRun base s.wbuf.toList) := by
  unfold commitBuffer
  split <;> simp [*, eq_comm]

/-- What the host has issued is taken oldest first. -/
theorem nextRequest_eq_some (s : State) (r : Request) (t : State) :
    nextRequest s = some (r, t) ↔ ∃ rest, s.pending = r :: rest ∧ t = s.setPending rest := by
  unfold nextRequest
  cases s.pending <;> simp [eq_comm]

/-- Nothing is taken when nothing has been issued. -/
theorem nextRequest_eq_none (s : State) : nextRequest s = none ↔ s.pending = [] := by
  unfold nextRequest
  cases s.pending <;> simp

/-- What a view operation can do: it was admitted, it reached inside the store, and it gave the byte or wrote it. -/
theorem execView_eq_next (v : View) (s t : State) (h : execView v s = .next t) :
    viewAdmitted s = true ∧ viewOffset v < Config.cardSize ∧
      ((t = s.setResponse (some (.viewed (s.storage.read (viewOffset v))))) ∨
        ∃ b, t = (s.setStorage (s.storage.write (viewOffset v) b)).setResponse none) := by
  unfold execView at h
  split at h
  · next hadm =>
    refine ⟨hadm, ?_⟩
    cases v with
    | readSector n i =>
      obtain ⟨hk, he⟩ := (memRead_eq_next _ _ _ _).1 h
      exact ⟨hk, Or.inl (by simpa [eq_comm] using he)⟩
    | readBlock b j =>
      obtain ⟨hk, he⟩ := (memRead_eq_next _ _ _ _).1 h
      exact ⟨hk, Or.inl (by simpa [eq_comm] using he)⟩
    | writeSector n i b =>
      obtain ⟨s1, h1, he⟩ := (andThen_eq_next _ _ _).1 h
      obtain ⟨hk, rfl⟩ := (memWrite_eq_next _ _ _ _).1 h1
      exact ⟨hk, Or.inr ⟨b, by simpa [eq_comm] using he⟩⟩
    | writeBlock b j c =>
      obtain ⟨s1, h1, he⟩ := (andThen_eq_next _ _ _).1 h
      obtain ⟨hk, rfl⟩ := (memWrite_eq_next _ _ _ _).1 h1
      exact ⟨hk, Or.inr ⟨c, by simpa [eq_comm] using he⟩⟩
  · exact absurd h (by simp)

/-- What storing a data byte can change: the store, or the write buffer, or both; nothing else. -/
theorem storeDataByte_eq_next (b : Byte) (s t : State) (h : storeDataByte b s = .next t) :
    ∃ m w, t = (s.setWbuf w).setStorage m := by
  unfold storeDataByte at h
  split at h
  · cases h
    exact ⟨s.storage, s.wbuf, rfl⟩
  · split at h
    · obtain ⟨-, rfl⟩ := (memWrite_eq_next _ _ _ _).1 h
      exact ⟨_, s.wbuf, rfl⟩
    · obtain ⟨s1, h1, h2⟩ := (andThen_eq_next _ _ _).1 h
      obtain ⟨-, rfl⟩ := (bufferByte_eq_next _ _ _ _).1 h1
      split at h2
      · obtain ⟨-, rfl⟩ := (commitBuffer_eq_next _ _ _).1 h2
        exact ⟨_, _, rfl⟩
      · cases h2
        exact ⟨s.storage, s.wbuf.setIfInBounds s.byteCounter.toNat b, rfl⟩
    · obtain ⟨-, rfl⟩ := (bufferByte_eq_next _ _ _ _).1 h
      exact ⟨s.storage, s.wbuf.setIfInBounds s.byteCounter.toNat b, rfl⟩

/-- What the commit at the end status can change: the store, by the whole buffer; nothing else. -/
theorem commitAtEnd_eq_next (s t : State) (h : commitAtEnd s = .next t) :
    (¬(s.writeCommit = .atEnd ∧ s.address ≠ poison) ∧ t = s) ∨
      (s.writeCommit = .atEnd ∧ s.address ≠ poison ∧ sectorBase s.address + Config.sectorSize ≤ Config.cardSize ∧
        t = s.setStorage (s.storage.writeRun (sectorBase s.address) s.wbuf.toList)) := by
  unfold commitAtEnd at h
  split at h
  · next hc =>
    obtain ⟨hk, rfl⟩ := (commitBuffer_eq_next _ _ _).1 h
    exact Or.inr ⟨hc.1, hc.2, hk, rfl⟩
  · next hc => exact Or.inl ⟨hc, by simpa [eq_comm] using h⟩

/-- What a step can do: nothing where nothing is issued; run the decoded instruction; or run the view operation. -/
theorem step_eq_next (s t : State) (h : step s = .next t) :
    (s.pending = [] ∧ t = s) ∨
      (∃ w rest i, s.pending = .op w :: rest ∧ decode s.context w = .ok i ∧ exec i (s.setPending rest) = .next t) ∨
      (∃ v rest, s.pending = .view v :: rest ∧ execView v (s.setPending rest) = .next t) := by
  unfold step at h
  cases hp : s.pending with
  | nil =>
    rw [(nextRequest_eq_none s).2 hp] at h
    exact Or.inl ⟨rfl, by simpa [eq_comm] using h⟩
  | cons r rest =>
    rw [(nextRequest_eq_some s r _).2 ⟨rest, hp, rfl⟩] at h
    cases r with
    | op w =>
      simp only [State.setPending_context] at h
      cases hd : decode s.context w with
      | ok i =>
        rw [hd] at h
        exact Or.inr (Or.inl ⟨w, rest, i, rfl, hd, h⟩)
      | error e =>
        rw [hd] at h
        cases e
        exact absurd h (by simp)
    | view v => exact Or.inr (Or.inr ⟨v, rest, rfl, h⟩)

end Sys2Proof.Machine
end

