-- ==== Sys2Proof/Laws/Exec.lean ====
section
/-!
SUPPORT. One inversion lemma per instruction: if `exec` answers a next state, then the row was selected, and this is the
state. The proofs about all instructions cite these instead of unfolding the meanings.
-/

set_option Elab.async false

namespace Sys2Proof.Machine

variable (cmd : Tri) (s t : State)

theorem exec_powerOn_eq_next : exec .powerOn s = .next t ↔
    (s.poweredOn = true ∧ t = s.setResponse (some (.power false))) ∨
      (s.poweredOn = false ∧ t = (((s.setPoweredOn true).setFlag flagReset).setPstate PState.idle).setResponse
        (some (.power true))) := by
  cases h : s.poweredOn <;> simp [exec, execPowerOn, h, eq_comm]

theorem exec_powerOff_eq_next : exec .powerOff s = .next t ↔
    (s.poweredOn = false ∧ t = s.setResponse (some (.power false))) ∨
      (s.poweredOn = true ∧ t = (s.setPoweredOn false).setResponse (some (.power true))) := by
  cases h : s.poweredOn <;> simp [exec, execPowerOff, h, eq_comm]

theorem exec_reservedOp11_ne_next (w : OpWord) : exec (.reservedOp11 w) s ≠ .next t := by
  simp [exec, execReservedOp11]

theorem exec_frameStart_eq_next : exec .frameStart s = .next t ↔
    (s.poweredOn = true ∧ s.pstate = PState.idle) ∧
      t = (s.setPstate PState.awaitCmd).setResponse (some (.transfer true .z)) := by
  simp only [exec, execFrameStart, whenRow_eq_next, moveOn_eq, Host.Outcome.next.injEq]
  exact and_congr_right fun _ => eq_comm

theorem exec_cmdRead_eq_next : exec .cmdRead s = .next t ↔
    (s.poweredOn = true ∧ s.pstate = PState.awaitCmd) ∧
      t = (s.setPstate (PState.read 0)).setResponse (some (.transfer true (.byte s.flag))) := by
  simp only [exec, execCmdRead, whenRow_eq_next, moveOn_eq, Host.Outcome.next.injEq]
  exact and_congr_right fun _ => eq_comm

theorem exec_cmdWrite_eq_next : exec .cmdWrite s = .next t ↔
    (s.poweredOn = true ∧ s.pstate = PState.awaitCmd) ∧
      t = (s.setPstate (PState.write 0)).setResponse (some (.transfer true (.byte s.flag))) := by
  simp only [exec, execCmdWrite, whenRow_eq_next, moveOn_eq, Host.Outcome.next.injEq]
  exact and_congr_right fun _ => eq_comm

theorem exec_cmdIdentify_eq_next : exec .cmdIdentify s = .next t ↔
    (s.poweredOn = true ∧ s.pstate = PState.awaitCmd) ∧
      t = (s.setPstate (PState.ident 0)).setResponse (some (.transfer true (.byte s.flag))) := by
  simp only [exec, execCmdIdentify, whenRow_eq_next, moveOn_eq, Host.Outcome.next.injEq]
  exact and_congr_right fun _ => eq_comm

theorem exec_readId0_eq_next : exec (.readId0 cmd) s = .next t ↔
    (s.poweredOn = true ∧ s.pstate = PState.read 0) ∧
      t = (s.setPstate (PState.read 1)).setResponse (some (.transfer true (.byte id1))) := by
  simp only [exec, execReadId0, whenRow_eq_next, moveOn_eq, Host.Outcome.next.injEq]
  exact and_congr_right fun _ => eq_comm

theorem exec_readId1_eq_next : exec (.readId1 cmd) s = .next t ↔
    (s.poweredOn = true ∧ s.pstate = PState.read 1) ∧
      t = (s.setPstate (PState.read 2)).setResponse (some (.transfer true (.byte id2))) := by
  simp only [exec, execReadId1, whenRow_eq_next, moveOn_eq, Host.Outcome.next.injEq]
  exact and_congr_right fun _ => eq_comm

theorem exec_readAck0_eq_next : exec (.readAck0 cmd) s = .next t ↔
    (s.poweredOn = true ∧ s.pstate = PState.read 4) ∧
      t = (s.setPstate (PState.read 5)).setResponse (some (.transfer true (.byte cack1))) := by
  simp only [exec, execReadAck0, whenRow_eq_next, moveOn_eq, Host.Outcome.next.injEq]
  exact and_congr_right fun _ => eq_comm

theorem exec_readAck1_eq_next : exec (.readAck1 cmd) s = .next t ↔
    (s.poweredOn = true ∧ s.pstate = PState.read 5) ∧
      t = (s.setPstate (PState.read 6)).setResponse (some (.transfer true (.byte cack2))) := by
  simp only [exec, execReadAck1, whenRow_eq_next, moveOn_eq, Host.Outcome.next.injEq]
  exact and_congr_right fun _ => eq_comm

theorem exec_readEchoMsb_eq_next : exec (.readEchoMsb cmd) s = .next t ↔
    (s.poweredOn = true ∧ s.pstate = PState.read 6) ∧
      t = (s.setPstate (PState.read 7)).setResponse (some (.transfer true (.byte (addressMsb s.address)))) := by
  simp only [exec, execReadEchoMsb, whenRow_eq_next, moveOn_eq, Host.Outcome.next.injEq]
  exact and_congr_right fun _ => eq_comm

theorem exec_readChecksum_eq_next : exec (.readChecksum cmd) s = .next t ↔
    (s.poweredOn = true ∧ s.pstate = PState.read 136) ∧
      t = (s.setPstate (PState.read 137)).setResponse (some (.transfer true (.byte s.checksum))) := by
  simp only [exec, execReadChecksum, whenRow_eq_next, moveOn_eq, Host.Outcome.next.injEq]
  exact and_congr_right fun _ => eq_comm

theorem exec_readAddrMsb_eq_next : exec (.readAddrMsb cmd) s = .next t ↔
    (s.poweredOn = true ∧ s.pstate = PState.read 2) ∧
      t = ((takeMsb cmd s).setPstate (PState.read 3)).setResponse (some (.transfer true (.byte 0x00))) := by
  simp only [exec, execReadAddrMsb, whenRow_eq_next, moveOn_eq, Host.Outcome.next.injEq]
  exact and_congr_right fun _ => eq_comm

theorem exec_readAddrLsb_eq_next : exec (.readAddrLsb cmd) s = .next t ↔
    (s.poweredOn = true ∧ s.pstate = PState.read 3) ∧
      t = ((takeLsb cmd s).setPstate (PState.read 4)).setResponse (some (.transfer true (.byte 0x00))) := by
  simp only [exec, execReadAddrLsb, whenRow_eq_next, moveOn_eq, Host.Outcome.next.injEq]
  exact and_congr_right fun _ => eq_comm

theorem exec_readStatus_eq_next : exec (.readStatus cmd) s = .next t ↔
    (s.poweredOn = true ∧ s.pstate = PState.read 137) ∧
      t = (s.setPstate PState.idle).setResponse (some (.transfer false (.byte stGood))) := by
  simp only [exec, execReadStatus, whenRow_eq_next, moveOn_eq, Host.Outcome.next.injEq]
  exact and_congr_right fun _ => eq_comm

theorem exec_writeId0_eq_next : exec (.writeId0 cmd) s = .next t ↔
    (s.poweredOn = true ∧ s.pstate = PState.write 0) ∧
      t = (s.setPstate (PState.write 1)).setResponse (some (.transfer true (.byte id1))) := by
  simp only [exec, execWriteId0, whenRow_eq_next, moveOn_eq, Host.Outcome.next.injEq]
  exact and_congr_right fun _ => eq_comm

theorem exec_writeId1_eq_next : exec (.writeId1 cmd) s = .next t ↔
    (s.poweredOn = true ∧ s.pstate = PState.write 1) ∧
      t = (s.setPstate (PState.write 2)).setResponse (some (.transfer true (.byte id2))) := by
  simp only [exec, execWriteId1, whenRow_eq_next, moveOn_eq, Host.Outcome.next.injEq]
  exact and_congr_right fun _ => eq_comm

theorem exec_writeAck0_eq_next : exec (.writeAck0 cmd) s = .next t ↔
    (s.poweredOn = true ∧ s.pstate = PState.write 133) ∧
      t = (s.setPstate (PState.write 134)).setResponse (some (.transfer true (.byte cack1))) := by
  simp only [exec, execWriteAck0, whenRow_eq_next, moveOn_eq, Host.Outcome.next.injEq]
  exact and_congr_right fun _ => eq_comm

theorem exec_writeAck1_eq_next : exec (.writeAck1 cmd) s = .next t ↔
    (s.poweredOn = true ∧ s.pstate = PState.write 134) ∧
      t = (s.setPstate (PState.write 135)).setResponse (some (.transfer true (.byte cack2))) := by
  simp only [exec, execWriteAck1, whenRow_eq_next, moveOn_eq, Host.Outcome.next.injEq]
  exact and_congr_right fun _ => eq_comm

theorem exec_writeAddrMsb_eq_next : exec (.writeAddrMsb cmd) s = .next t ↔
    (s.poweredOn = true ∧ s.pstate = PState.write 2) ∧
      t = ((takeMsb cmd s).setPstate (PState.write 3)).setResponse (some (.transfer true (.byte 0x00))) := by
  simp only [exec, execWriteAddrMsb, whenRow_eq_next, moveOn_eq, Host.Outcome.next.injEq]
  exact and_congr_right fun _ => eq_comm

theorem exec_writeAddrLsb_eq_next : exec (.writeAddrLsb cmd) s = .next t ↔
    (s.poweredOn = true ∧ s.pstate = PState.write 3) ∧
      t = ((takeLsb cmd s).setPstate (PState.write 4)).setResponse (some (.transfer true (.byte 0x00))) := by
  simp only [exec, execWriteAddrLsb, whenRow_eq_next, moveOn_eq, Host.Outcome.next.injEq]
  exact and_congr_right fun _ => eq_comm

theorem exec_writeChecksum_eq_next : exec (.writeChecksum cmd) s = .next t ↔
    (s.poweredOn = true ∧ s.pstate = PState.write 132) ∧
      t = ((s.setChecksum (accumulate s.checksum (conc cmd))).setPstate (PState.write 133)).setResponse (some (.transfer true (.byte 0x00))) := by
  simp only [exec, execWriteChecksum, whenRow_eq_next, moveOn_eq, Host.Outcome.next.injEq]
  exact and_congr_right fun _ => eq_comm

theorem exec_identStep0_eq_next : exec (.identStep0 cmd) s = .next t ↔
    (s.poweredOn = true ∧ s.pstate = PState.ident 0) ∧
      t = (s.setPstate (PState.ident 1)).setResponse (some (.transfer true (.byte id1))) := by
  simp only [exec, execIdentStep0, whenRow_eq_next, moveOn_eq, Host.Outcome.next.injEq]
  exact and_congr_right fun _ => eq_comm

theorem exec_identStep1_eq_next : exec (.identStep1 cmd) s = .next t ↔
    (s.poweredOn = true ∧ s.pstate = PState.ident 1) ∧
      t = (s.setPstate (PState.ident 2)).setResponse (some (.transfer true (.byte id2))) := by
  simp only [exec, execIdentStep1, whenRow_eq_next, moveOn_eq, Host.Outcome.next.injEq]
  exact and_congr_right fun _ => eq_comm

theorem exec_identStep2_eq_next : exec (.identStep2 cmd) s = .next t ↔
    (s.poweredOn = true ∧ s.pstate = PState.ident 2) ∧
      t = (s.setPstate (PState.ident 3)).setResponse (some (.transfer true (.byte cack1))) := by
  simp only [exec, execIdentStep2, whenRow_eq_next, moveOn_eq, Host.Outcome.next.injEq]
  exact and_congr_right fun _ => eq_comm

theorem exec_identStep3_eq_next : exec (.identStep3 cmd) s = .next t ↔
    (s.poweredOn = true ∧ s.pstate = PState.ident 3) ∧
      t = (s.setPstate (PState.ident 4)).setResponse (some (.transfer true (.byte cack2))) := by
  simp only [exec, execIdentStep3, whenRow_eq_next, moveOn_eq, Host.Outcome.next.injEq]
  exact and_congr_right fun _ => eq_comm

theorem exec_identStep4_eq_next : exec (.identStep4 cmd) s = .next t ↔
    (s.poweredOn = true ∧ s.pstate = PState.ident 4) ∧
      t = (s.setPstate (PState.ident 5)).setResponse (some (.transfer true (.byte identPayload0))) := by
  simp only [exec, execIdentStep4, whenRow_eq_next, moveOn_eq, Host.Outcome.next.injEq]
  exact and_congr_right fun _ => eq_comm

theorem exec_identStep5_eq_next : exec (.identStep5 cmd) s = .next t ↔
    (s.poweredOn = true ∧ s.pstate = PState.ident 5) ∧
      t = (s.setPstate (PState.ident 6)).setResponse (some (.transfer true (.byte identPayload1))) := by
  simp only [exec, execIdentStep5, whenRow_eq_next, moveOn_eq, Host.Outcome.next.injEq]
  exact and_congr_right fun _ => eq_comm

theorem exec_identStep6_eq_next : exec (.identStep6 cmd) s = .next t ↔
    (s.poweredOn = true ∧ s.pstate = PState.ident 6) ∧
      t = (s.setPstate (PState.ident 7)).setResponse (some (.transfer true (.byte identPayload2))) := by
  simp only [exec, execIdentStep6, whenRow_eq_next, moveOn_eq, Host.Outcome.next.injEq]
  exact and_congr_right fun _ => eq_comm

theorem exec_identStep7_eq_next : exec (.identStep7 cmd) s = .next t ↔
    (s.poweredOn = true ∧ s.pstate = PState.ident 7) ∧
      t = (s.setPstate PState.idle).setResponse (some (.transfer false (.byte identPayload3))) := by
  simp only [exec, execIdentStep7, whenRow_eq_next, moveOn_eq, Host.Outcome.next.injEq]
  exact and_congr_right fun _ => eq_comm

theorem exec_xferUnpowered_eq_next : exec (.xferUnpowered cmd) s = .next t ↔
    s.poweredOn = false ∧
      t = s.setResponse (some (.transfer false .z)) := by
  simp only [exec, execXferUnpowered, whenRow_eq_next, respond_eq, Host.Outcome.next.injEq]
  exact and_congr_right fun _ => eq_comm

theorem exec_idleIgnore_eq_next : exec (.idleIgnore cmd) s = .next t ↔
    (s.poweredOn = true ∧ s.pstate = PState.idle ∧ cmd ≠ .byte frameStartByte) ∧
      t = s.setResponse (some (.transfer false .z)) := by
  simp only [exec, execIdleIgnore, whenRow_eq_next, respond_eq, Host.Outcome.next.injEq]
  exact and_congr_right fun _ => eq_comm

theorem exec_cmdReject_eq_next : exec (.cmdReject cmd) s = .next t ↔
    (s.poweredOn = true ∧ s.pstate = PState.awaitCmd ∧ cmd ≠ .byte cmdReadByte ∧ cmd ≠ .byte cmdWriteByte ∧
      cmd ≠ .byte cmdIdentifyByte) ∧
      t = (s.setPstate PState.idle).setResponse (some (.transfer false (.byte s.flag))) := by
  simp only [exec, execCmdReject, whenRow_eq_next, moveOn_eq, Host.Outcome.next.injEq]
  exact and_congr_right fun _ => eq_comm

theorem exec_readEchoLsb_eq_next : exec (.readEchoLsb cmd) s = .next t ↔
    (s.poweredOn = true ∧ s.pstate = PState.read 7) ∧
      ((s.address = poison ∧ t = (s.setPstate PState.idle).setResponse (some (.transfer false (.byte 0xFF)))) ∨
        (s.address ≠ poison ∧
          t = (s.setPstate (PState.read 8)).setResponse (some (.transfer true (.byte (addressLsb s.address)))))) := by
  simp only [exec, execReadEchoLsb, whenRow_eq_next]
  refine and_congr_right fun _ => ⟨fun h => ?_, ?_⟩
  · split at h
    · next ha => cases h; exact Or.inl ⟨ha, rfl⟩
    · next ha => cases h; exact Or.inr ⟨ha, rfl⟩
  · rintro (⟨ha, rfl⟩ | ⟨ha, rfl⟩)
    · rw [if_pos ha, moveOn_eq]
    · rw [if_neg ha, moveOn_eq]

theorem exec_readData_eq_next : exec (.readData cmd) s = .next t ↔
    (s.poweredOn = true ∧ s.pstate.tag = 0b010#3 ∧ 8 ≤ s.pstate.step.toNat ∧ s.pstate.step.toNat ≤ 135) ∧
      dataOffset s < Config.cardSize ∧
      t = (((s.setChecksum (accumulate s.checksum (s.storage.read (dataOffset s)))).setByteCounter
        (s.byteCounter + 1)).setPstate (PState.read (s.pstate.step + 1))).setResponse
          (some (.transfer true (.byte (s.storage.read (dataOffset s))))) := by
  simp only [exec, execReadData, whenRow_eq_next, memRead_eq_next, moveOn_eq, Host.Outcome.next.injEq]
  exact and_congr_right fun _ => and_congr_right fun _ => eq_comm

theorem exec_writeData_eq_next : exec (.writeData cmd) s = .next t ↔
    (s.poweredOn = true ∧ s.pstate.tag = 0b011#3 ∧ 4 ≤ s.pstate.step.toNat ∧ s.pstate.step.toNat ≤ 131) ∧
      ∃ u, storeDataByte (conc cmd) s = .next u ∧
        t = (((u.setChecksum (accumulate s.checksum (conc cmd))).setByteCounter (s.byteCounter + 1)).setPstate
          (PState.write (s.pstate.step + 1))).setResponse (some (.transfer true (.byte 0x00))) := by
  simp only [exec, execWriteData, whenRow_eq_next, andThen_eq_next, moveOn_eq, Host.Outcome.next.injEq]
  exact and_congr_right fun _ => exists_congr fun _ => and_congr_right fun _ => eq_comm

theorem exec_writeStatus_eq_next : exec (.writeStatus cmd) s = .next t ↔
    (s.poweredOn = true ∧ s.pstate = PState.write 135) ∧
      ∃ u, commitAtEnd s = .next u ∧
        t = (u.setPstate PState.idle).setResponse
          (some (.transfer false (.byte (verdict s.address s.checksum)))) := by
  simp only [exec, execWriteStatus, whenRow_eq_next, andThen_eq_next, moveOn_eq, Host.Outcome.next.injEq]
  exact and_congr_right fun _ => exists_congr fun _ => and_congr_right fun _ => eq_comm

end Sys2Proof.Machine
end

