-- ==== Sys2Proof/Laws/Memory.lean ====
section
/-!
SUPPORT. The backing store: reading after writing, and the canonical form that every operation keeps (20_memory.md R51,
R60).
-/

set_option Elab.async false

namespace Sys2Proof.Machine

/-- The canonical form of a store with a first cell: the cell is inside the store, holds something, and lies below the
canonical rest. -/
theorem Memory.wf_cons (a : Nat) (v : Byte) (m : Memory) :
    Memory.wf ((a, v) :: m) = true ↔
      (∀ c ∈ m, a < c.1) ∧ a < Config.cardSize ∧ v ≠ unlisted ∧ Memory.wf m = true := by
  simp only [Memory.wf, List.pairwise_cons, List.all_cons, Bool.and_eq_true, decide_eq_true_eq, bne_iff_ne]
  tauto

theorem Memory.wf_nil : Memory.wf [] = true := by decide

/-- An offset below every cell reads as unlisted. -/
theorem Memory.read_below (m : Memory) (k : Nat) (h : ∀ c ∈ m, k < c.1) : Memory.read m k = unlisted := by
  induction m with
  | nil => rfl
  | cons c m ih =>
    obtain ⟨a, v⟩ := c
    have hk : k < a := h (a, v) (by simp)
    simp only [Memory.read, if_neg (by omega : ¬a = k)]
    exact ih fun c hc => h c (by simp [hc])

/-- A write leaves every other offset alone. -/
theorem Memory.read_write_other (m : Memory) (k j : Nat) (v : Byte) (hj : j ≠ k) :
    Memory.read (Memory.write m k v) j = Memory.read m j := by
  induction m with
  | nil => simp only [Memory.write]; split <;> simp [Memory.read, hj.symm]
  | cons c m ih =>
    obtain ⟨a, w⟩ := c
    simp only [Memory.write]
    split_ifs with h1 h2 h3 h4
    · rfl
    · simp [Memory.read, hj.symm]
    · subst h3; simp [Memory.read, hj.symm]
    · subst h3; simp [Memory.read, hj.symm]
    · simp only [Memory.read, ih]

/-- A read after a write to the same offset gives the value written. -/
theorem Memory.read_write_same (m : Memory) (k : Nat) (v : Byte) (hm : Memory.wf m = true) :
    Memory.read (Memory.write m k v) k = v := by
  induction m with
  | nil => simp only [Memory.write]; split <;> simp_all [Memory.read]
  | cons c m ih =>
    obtain ⟨a, w⟩ := c
    obtain ⟨hlt, -, -, hm'⟩ := (Memory.wf_cons a w m).1 hm
    simp only [Memory.write]
    split_ifs with h1 h2 h3 h4
    · rw [Memory.read_below, h2]
      intro c hc
      rcases List.mem_cons.1 hc with rfl | hc
      · exact h1
      · exact h1.trans (hlt c hc)
    · simp [Memory.read]
    · subst h3
      rw [Memory.read_below _ _ hlt, h4]
    · simp [Memory.read]
    · simp only [Memory.read, if_neg (fun h : a = k => h3 h.symm), ih hm']

/-- The offsets a write lists: those it had, and the one written. -/
theorem Memory.mem_write (m : Memory) (k : Nat) (v : Byte) (c : Host.Cell) (hc : c ∈ Memory.write m k v) :
    c ∈ m ∨ c = (k, v) := by
  induction m with
  | nil =>
    simp only [Memory.write] at hc
    split at hc <;> simp_all
  | cons d m ih =>
    obtain ⟨a, w⟩ := d
    simp only [Memory.write] at hc
    split_ifs at hc with h1 h2 h3 h4
    · exact Or.inl hc
    · rcases List.mem_cons.1 hc with h | h
      · exact Or.inr h
      · exact Or.inl h
    · exact Or.inl (List.mem_cons_of_mem _ hc)
    · rcases List.mem_cons.1 hc with h | h
      · exact Or.inr h
      · exact Or.inl (List.mem_cons_of_mem _ h)
    · rcases List.mem_cons.1 hc with h | h
      · exact Or.inl (h ▸ List.mem_cons_self)
      · rcases ih h with h | h
        · exact Or.inl (List.mem_cons_of_mem _ h)
        · exact Or.inr h

/-- A write inside the store keeps the canonical form. -/
theorem Memory.write_wf (m : Memory) (k : Nat) (v : Byte) (hk : k < Config.cardSize) (hm : Memory.wf m = true) :
    Memory.wf (Memory.write m k v) = true := by
  induction m with
  | nil =>
    simp only [Memory.write]
    split
    · exact Memory.wf_nil
    · next h => exact (Memory.wf_cons k v []).2 ⟨by simp, hk, h, Memory.wf_nil⟩
  | cons c m ih =>
    obtain ⟨a, w⟩ := c
    obtain ⟨hlt, ha, hw, hm'⟩ := (Memory.wf_cons a w m).1 hm
    simp only [Memory.write]
    split_ifs with h1 h2 h3 h4
    · exact hm
    · refine (Memory.wf_cons k v _).2 ⟨?_, hk, h2, hm⟩
      intro c hc
      rcases List.mem_cons.1 hc with rfl | hc
      · exact h1
      · exact h1.trans (hlt c hc)
    · exact hm'
    · subst h3
      exact (Memory.wf_cons k v _).2 ⟨hlt, hk, h4, hm'⟩
    · refine (Memory.wf_cons a w _).2 ⟨?_, ha, hw, ih hm'⟩
      intro c hc
      rcases Memory.mem_write m k v c hc with hc | rfl
      · exact hlt c hc
      · simp only; omega

/-- A run of writes inside the store keeps the canonical form. -/
theorem Memory.writeRun_wf (m : Memory) (k : Nat) (vs : List Byte) (hk : k + vs.length ≤ Config.cardSize)
    (hm : Memory.wf m = true) : Memory.wf (Memory.writeRun m k vs) = true := by
  induction vs generalizing m k with
  | nil => exact hm
  | cons v vs ih =>
    simp only [List.length_cons] at hk
    exact ih (m.write k v) (k + 1) (by omega) (Memory.write_wf m k v (by omega) hm)

/-- What an offset reads as after a run of writes: its byte of the run, or what it read as before. -/
theorem Memory.read_writeRun (m : Memory) (k : Nat) (vs : List Byte) (j : Nat) (hk : k + vs.length ≤ Config.cardSize)
    (hm : Memory.wf m = true) :
    Memory.read (Memory.writeRun m k vs) j =
      if k ≤ j ∧ j < k + vs.length then vs[j - k]?.getD unlisted else Memory.read m j := by
  induction vs generalizing m k with
  | nil => rw [if_neg (by simp)]; rfl
  | cons v vs ih =>
    simp only [List.length_cons] at hk ⊢
    rw [Memory.writeRun, ih (m.write k v) (k + 1) (by omega) (Memory.write_wf m k v (by omega) hm)]
    rcases Nat.lt_trichotomy j k with h | h | h
    · rw [if_neg (by omega), if_neg (by omega), Memory.read_write_other m k j v (by omega)]
    · subst h
      rw [if_neg (by omega), if_pos (by omega), Memory.read_write_same m j v hm]
      simp
    · by_cases hj : j < k + (vs.length + 1)
      · rw [if_pos (by omega), if_pos (by omega)]
        obtain ⟨d, rfl⟩ : ∃ d, j = k + 1 + d := ⟨j - (k + 1), by omega⟩
        rw [show k + 1 + d - (k + 1) = d by omega, show k + 1 + d - k = d + 1 by omega]
        simp
      · rw [if_neg (by omega), if_neg (by omega), Memory.read_write_other m k j v (by omega)]

/-- Two canonical stores that read alike everywhere are the same data. -/
theorem Memory.ext_of_read (m n : Memory) (hm : Memory.wf m = true) (hn : Memory.wf n = true)
    (h : ∀ j, Memory.read m j = Memory.read n j) : m = n := by
  induction m generalizing n with
  | nil =>
    cases n with
    | nil => rfl
    | cons d n =>
      obtain ⟨b, y⟩ := d
      obtain ⟨-, -, hy, -⟩ := (Memory.wf_cons b y n).1 hn
      exact absurd (by simpa [Memory.read] using (h b).symm) hy
  | cons c m ih =>
    obtain ⟨a, x⟩ := c
    obtain ⟨ha, -, hx, hm'⟩ := (Memory.wf_cons a x m).1 hm
    have hma : Memory.read ((a, x) :: m) a = x := by simp [Memory.read]
    cases n with
    | nil => exact absurd (by rw [← hma, h a]; rfl) hx
    | cons d n =>
      obtain ⟨b, y⟩ := d
      obtain ⟨hb, -, hy, hn'⟩ := (Memory.wf_cons b y n).1 hn
      have hnb : Memory.read ((b, y) :: n) b = y := by simp [Memory.read]
      have hab : a = b := by
        rcases Nat.lt_trichotomy a b with hl | he | hl
        · refine absurd ?_ hx
          rw [← hma, h a, Memory.read_below]
          intro c hc
          rcases List.mem_cons.1 hc with rfl | hc
          · exact hl
          · exact hl.trans (hb c hc)
        · exact he
        · refine absurd ?_ hy
          rw [← hnb, ← h b, Memory.read_below]
          intro c hc
          rcases List.mem_cons.1 hc with rfl | hc
          · exact hl
          · exact hl.trans (ha c hc)
      subst hab
      have hxy : x = y := by rw [← hma, h a, hnb]
      subst hxy
      congr 1
      refine ih n hm' hn' fun j => ?_
      by_cases hj : a = j
      · subst hj
        rw [Memory.read_below m a ha, Memory.read_below n a hb]
      · simpa [Memory.read, hj] using h j

/-- The cells of a byte array are at or after its first offset. -/
theorem Memory.mem_ofBytes (k : Nat) (vs : List Byte) (c : Host.Cell) (hc : c ∈ Memory.ofBytes k vs) :
    k ≤ c.1 ∧ c.1 < k + vs.length := by
  induction vs generalizing k with
  | nil => simp [Memory.ofBytes] at hc
  | cons v vs ih =>
    simp only [Memory.ofBytes] at hc
    simp only [List.length_cons]
    split at hc
    · have := ih (k + 1) hc; omega
    · rcases List.mem_cons.1 hc with rfl | hc
      · simp
      · have := ih (k + 1) hc; omega

/-- A byte array laid inside the store is canonical. -/
theorem Memory.ofBytes_wf (k : Nat) (vs : List Byte) (hk : k + vs.length ≤ Config.cardSize) :
    Memory.wf (Memory.ofBytes k vs) = true := by
  induction vs generalizing k with
  | nil => exact Memory.wf_nil
  | cons v vs ih =>
    simp only [List.length_cons] at hk
    simp only [Memory.ofBytes]
    split
    · exact ih (k + 1) (by omega)
    · next hv =>
      refine (Memory.wf_cons k v _).2 ⟨?_, by omega, hv, ih (k + 1) (by omega)⟩
      intro c hc
      have := Memory.mem_ofBytes (k + 1) vs c hc
      omega

/-- A byte array laid at an offset reads as its bytes. -/
theorem Memory.read_ofBytes (k : Nat) (vs : List Byte) (j : Nat) :
    Memory.read (Memory.ofBytes k vs) (k + j) = vs[j]?.getD unlisted := by
  induction vs generalizing k j with
  | nil => rfl
  | cons v vs ih =>
    cases j with
    | zero =>
      simp only [Memory.ofBytes]
      split
      · next hv =>
        rw [Memory.read_below]
        · simp [hv]
        · intro c hc
          have := Memory.mem_ofBytes (k + 1) vs c hc
          omega
      · simp [Memory.read]
    | succ j =>
      simp only [Memory.ofBytes]
      have := ih (k + 1) j
      rw [show k + 1 + j = k + (j + 1) by omega] at this
      split
      · simpa using this
      · simpa [Memory.read] using this

end Sys2Proof.Machine
end

