-- ==== Sys2Proof/Laws/PerInstr.lean ====
section
/-!
SUPPORT. The family `EncodesTableRow`: every well-formed instruction's word lies in its row of spec/opcode_table.json, one
lemma per constructor.
-/

set_option Elab.async false

namespace Sys2Proof.Laws

open Machine

/-- The row's "mask" (spec/opcode_table.json). -/
def tableMask : Instr → OpWord
  | .powerOn | .powerOff | .frameStart | .cmdRead | .cmdWrite | .cmdIdentify => 0x7FF#11
  | _ => 0x600#11

/-- The row's "match" (spec/opcode_table.json). -/
def tableMatch : Instr → OpWord
  | .powerOn => 0x200#11
  | .powerOff => 0x400#11
  | .reservedOp11 _ => 0x600#11
  | .frameStart => 0x181#11
  | .cmdRead => 0x152#11
  | .cmdWrite => 0x157#11
  | .cmdIdentify => 0x153#11
  | _ => 0x000#11

/-- The row's "except" (spec/opcode_table.json). -/
def tableExcept : Instr → List OpWord
  | .idleIgnore _ => [0x181#11]
  | .cmdReject _ => [0x152#11, 0x153#11, 0x157#11]
  | _ => []

/-- The words the row's "note" adds: the POWER words whose bits 8:0 are not 0 (spec/opcode_table.json). -/
def tableNote : Instr → OpWord → Bool
  | .reservedOp11 _, w => (decide (0x201#11 ≤ w) && decide (w ≤ 0x3FF#11)) || (decide (0x401#11 ≤ w) && decide (w ≤ 0x5FF#11))
  | _, _ => false

/-- The word lies in the instruction's row of the table. -/
def inTableRow (i : Instr) (w : OpWord) : Bool :=
  (w &&& tableMask i == tableMatch i && !(tableExcept i).contains w) || tableNote i w

/-- A well-formed instruction's word lies in its row. -/
def EncodesTableRow.Statement (i : Instr) : Prop := WellFormed i = true → inTableRow i (encode i) = true

theorem xferWord_op (cmd : Tri) : (xferWord cmd &&& 0x600#11 == 0x000#11) = true := by
  cases cmd with
  | z => decide
  | byte b => revert b; decide

theorem xferWord_inj (a b : Tri) (h : xferWord a = xferWord b) : a = b := by
  have hz : ∀ c : Byte, xferWord .z ≠ xferWord (.byte c) := by decide
  have hb : ∀ c d : Byte, xferWord (.byte c) = xferWord (.byte d) → c = d := by
    have low : ∀ c : Byte, (xferWord (.byte c)).setWidth 8 = c := by decide
    intro c d hcd
    rw [← low c, hcd, low d]
  cases a with
  | z => cases b with
    | z => rfl
    | byte c => exact absurd h (hz c)
  | byte c => cases b with
    | z => exact absurd h.symm (hz c)
    | byte d => rw [hb c d h]

namespace EncodesTableRow

theorem powerOn : Statement .powerOn := fun _ => by decide
theorem powerOff : Statement .powerOff := fun _ => by decide
theorem reservedOp11 (w : OpWord) : Statement (.reservedOp11 w) := by
  revert w
  unfold Statement
  decide +kernel
theorem frameStart : Statement .frameStart := fun _ => by decide
theorem idleIgnore (cmd : Tri) : Statement (.idleIgnore cmd) := by
  intro h
  have h1 : xferWord cmd ≠ 0x181#11 := fun he => by
    have := xferWord_inj cmd (.byte frameStartByte) (he.trans (by decide))
    simp [this, WellFormed] at h
  simp [inTableRow, tableMask, tableMatch, tableExcept, encode, h1, eq_of_beq (xferWord_op cmd)]
theorem cmdRead : Statement .cmdRead := fun _ => by decide
theorem cmdWrite : Statement .cmdWrite := fun _ => by decide
theorem cmdIdentify : Statement .cmdIdentify := fun _ => by decide
theorem cmdReject (cmd : Tri) : Statement (.cmdReject cmd) := by
  intro h
  have h1 : xferWord cmd ≠ 0x152#11 := fun he => by
    have := xferWord_inj cmd (.byte cmdReadByte) (he.trans (by decide))
    simp [this, WellFormed] at h
  have h2 : xferWord cmd ≠ 0x157#11 := fun he => by
    have := xferWord_inj cmd (.byte cmdWriteByte) (he.trans (by decide))
    simp [this, WellFormed] at h
  have h3 : xferWord cmd ≠ 0x153#11 := fun he => by
    have := xferWord_inj cmd (.byte cmdIdentifyByte) (he.trans (by decide))
    simp [this, WellFormed] at h
  simp [inTableRow, tableMask, tableMatch, tableExcept, encode, h1, h2, h3, eq_of_beq (xferWord_op cmd)]

/-- A row that admits every tri-state byte, by the pattern all TRANSFER words share. -/
theorem of_xferWord (i : Instr) (cmd : Tri) (he : encode i = xferWord cmd) (hm : tableMask i = 0x600#11)
    (ht : tableMatch i = 0x000#11) (hx : tableExcept i = []) : Statement i := by
  intro _
  simp [inTableRow, he, hm, ht, hx, eq_of_beq (xferWord_op cmd)]

theorem xferUnpowered (cmd : Tri) : Statement (.xferUnpowered cmd) := of_xferWord _ cmd rfl rfl rfl rfl
theorem readId0 (cmd : Tri) : Statement (.readId0 cmd) := of_xferWord _ cmd rfl rfl rfl rfl
theorem readId1 (cmd : Tri) : Statement (.readId1 cmd) := of_xferWord _ cmd rfl rfl rfl rfl
theorem readAddrMsb (cmd : Tri) : Statement (.readAddrMsb cmd) := of_xferWord _ cmd rfl rfl rfl rfl
theorem readAddrLsb (cmd : Tri) : Statement (.readAddrLsb cmd) := of_xferWord _ cmd rfl rfl rfl rfl
theorem readAck0 (cmd : Tri) : Statement (.readAck0 cmd) := of_xferWord _ cmd rfl rfl rfl rfl
theorem readAck1 (cmd : Tri) : Statement (.readAck1 cmd) := of_xferWord _ cmd rfl rfl rfl rfl
theorem readEchoMsb (cmd : Tri) : Statement (.readEchoMsb cmd) := of_xferWord _ cmd rfl rfl rfl rfl
theorem readEchoLsb (cmd : Tri) : Statement (.readEchoLsb cmd) := of_xferWord _ cmd rfl rfl rfl rfl
theorem readData (cmd : Tri) : Statement (.readData cmd) := of_xferWord _ cmd rfl rfl rfl rfl
theorem readChecksum (cmd : Tri) : Statement (.readChecksum cmd) := of_xferWord _ cmd rfl rfl rfl rfl
theorem readStatus (cmd : Tri) : Statement (.readStatus cmd) := of_xferWord _ cmd rfl rfl rfl rfl
theorem writeId0 (cmd : Tri) : Statement (.writeId0 cmd) := of_xferWord _ cmd rfl rfl rfl rfl
theorem writeId1 (cmd : Tri) : Statement (.writeId1 cmd) := of_xferWord _ cmd rfl rfl rfl rfl
theorem writeAddrMsb (cmd : Tri) : Statement (.writeAddrMsb cmd) := of_xferWord _ cmd rfl rfl rfl rfl
theorem writeAddrLsb (cmd : Tri) : Statement (.writeAddrLsb cmd) := of_xferWord _ cmd rfl rfl rfl rfl
theorem writeData (cmd : Tri) : Statement (.writeData cmd) := of_xferWord _ cmd rfl rfl rfl rfl
theorem writeChecksum (cmd : Tri) : Statement (.writeChecksum cmd) := of_xferWord _ cmd rfl rfl rfl rfl
theorem writeAck0 (cmd : Tri) : Statement (.writeAck0 cmd) := of_xferWord _ cmd rfl rfl rfl rfl
theorem writeAck1 (cmd : Tri) : Statement (.writeAck1 cmd) := of_xferWord _ cmd rfl rfl rfl rfl
theorem writeStatus (cmd : Tri) : Statement (.writeStatus cmd) := of_xferWord _ cmd rfl rfl rfl rfl
theorem identStep0 (cmd : Tri) : Statement (.identStep0 cmd) := of_xferWord _ cmd rfl rfl rfl rfl
theorem identStep1 (cmd : Tri) : Statement (.identStep1 cmd) := of_xferWord _ cmd rfl rfl rfl rfl
theorem identStep2 (cmd : Tri) : Statement (.identStep2 cmd) := of_xferWord _ cmd rfl rfl rfl rfl
theorem identStep3 (cmd : Tri) : Statement (.identStep3 cmd) := of_xferWord _ cmd rfl rfl rfl rfl
theorem identStep4 (cmd : Tri) : Statement (.identStep4 cmd) := of_xferWord _ cmd rfl rfl rfl rfl
theorem identStep5 (cmd : Tri) : Statement (.identStep5 cmd) := of_xferWord _ cmd rfl rfl rfl rfl
theorem identStep6 (cmd : Tri) : Statement (.identStep6 cmd) := of_xferWord _ cmd rfl rfl rfl rfl
theorem identStep7 (cmd : Tri) : Statement (.identStep7 cmd) := of_xferWord _ cmd rfl rfl rfl rfl

end EncodesTableRow

end Sys2Proof.Laws
end

