-- ==== Sys2Proof/Laws/Safety.lean ====
section
/-!
SUPPORT. The small lemmas of Safety.lean's definitions, so that no proof unfolds a run or a long XOR.
-/

namespace Sys2Proof.Machine

@[simp] theorem steps_zero (s : State) : steps 0 s = .next s := rfl

/-- A run whose first step answers goes on from there. -/
theorem steps_succ (k : Nat) (s t : State) (h : step s = .next t) : steps (k + 1) s = steps k t := by
  rw [steps, h, andThen_next]

@[simp] theorem xorUpTo_zero (f : Nat → Byte) : xorUpTo f 0 = 0x00#8 := rfl

theorem xorUpTo_succ (f : Nat → Byte) (n : Nat) : xorUpTo f (n + 1) = xorUpTo f n ^^^ f n := rfl

/-- The XOR looks at the first `n` values only. -/
theorem xorUpTo_congr (f g : Nat → Byte) (n : Nat) (h : ∀ j < n, f j = g j) : xorUpTo f n = xorUpTo g n := by
  induction n with
  | zero => rfl
  | succ n ih => rw [xorUpTo_succ, xorUpTo_succ, ih fun j hj => h j (by omega), h n (by omega)]

/-- The byte sent at a step whose word is known. -/
theorem sentByte_of_get (ws : List OpWord) (k : Nat) (w : OpWord) (h : ws[k]? = some w) :
    sentByte ws k = conc (triField w) := by
  rw [sentByte, List.getD_eq_getElem?_getD, h]
  rfl

end Sys2Proof.Machine
end

