-- ==== Sys2Proof/Tests/Slice0.lean ====
section
/-!
SUPPORT. Small tests, each a named theorem: the well-formedness smoke tests, one decoded word for every row, one or two
single steps for every row, and for each statement of Obligations.lean that has hypotheses a state that meets them
(`witness_<its name>`). Expected values are those of spec/95_test_vectors.md or are worked out from the rule named.
-/

set_option Elab.async false

namespace Sys2Proof.Tests

open Sys2Proof.Machine

/-! ### Well-formedness -/

/-- 30_encoding.md R88: 0x200 and 0x081 are not reserved. -/
theorem test_wf_reserved_refuses_power_on : WellFormed (.reservedOp11 0x200#11) = false := by decide
theorem test_wf_reserved_refuses_transfer : WellFormed (.reservedOp11 0x181#11) = false := by decide
theorem test_wf_reserved_admits_power_low_bit : WellFormed (.reservedOp11 0x201#11) = true := by decide

/-- spec/opcode_table.json, "except" of IDLE_IGNORE. -/
theorem test_wf_idle_ignore_refuses_0x81 : WellFormed (.idleIgnore (.byte 0x81#8)) = false := by decide
theorem test_wf_idle_ignore_admits_z : WellFormed (.idleIgnore .z) = true := by decide

/-- spec/opcode_table.json, "except" of CMD_REJECT. -/
theorem test_wf_cmd_reject_refuses_commands :
    WellFormed (.cmdReject (.byte 0x52#8)) = false ∧ WellFormed (.cmdReject (.byte 0x53#8)) = false ∧
      WellFormed (.cmdReject (.byte 0x57#8)) = false := by decide
theorem test_wf_cmd_reject_admits_0x81 : WellFormed (.cmdReject (.byte 0x81#8)) = true := by decide

/-! ### Decoding: words written out as `op V B` (30_encoding.md R71), each in the state its row names -/

theorem test_decode_powerOn : decode ⟨false, PState.idle⟩ 0b01000000000#11 = .ok .powerOn := by decide
theorem test_decode_powerOff : decode ⟨true, PState.write 7⟩ 0b10000000000#11 = .ok .powerOff := by decide
theorem test_decode_reservedOp11 : decode ⟨true, PState.idle⟩ 0b11000000000#11 = .ok (.reservedOp11 0x600#11) := by decide
theorem test_decode_reservedOp11_power_on_b : decode ⟨false, PState.idle⟩ 0b01000000001#11 = .ok (.reservedOp11 0x201#11) := by decide
theorem test_decode_reservedOp11_power_off_v : decode ⟨true, PState.idle⟩ 0b10100000000#11 = .ok (.reservedOp11 0x500#11) := by decide
theorem test_decode_xferUnpowered : decode ⟨false, PState.write 2⟩ 0b00110000001#11 = .ok (.xferUnpowered (.byte 0x81#8)) := by decide
theorem test_decode_frameStart : decode ⟨true, PState.idle⟩ 0b00110000001#11 = .ok .frameStart := by decide
theorem test_decode_idleIgnore : decode ⟨true, PState.idle⟩ 0b00101010010#11 = .ok (.idleIgnore (.byte 0x52#8)) := by decide
theorem test_decode_idleIgnore_v_clear : decode ⟨true, PState.idle⟩ 0b00010000001#11 = .ok (.idleIgnore .z) := by decide
theorem test_decode_cmdRead : decode ⟨true, PState.awaitCmd⟩ 0b00101010010#11 = .ok .cmdRead := by decide
theorem test_decode_cmdWrite : decode ⟨true, PState.awaitCmd⟩ 0b00101010111#11 = .ok .cmdWrite := by decide
theorem test_decode_cmdIdentify : decode ⟨true, PState.awaitCmd⟩ 0b00101010011#11 = .ok .cmdIdentify := by decide
theorem test_decode_cmdReject : decode ⟨true, PState.awaitCmd⟩ 0b00101110010#11 = .ok (.cmdReject (.byte 0x72#8)) := by decide
theorem test_decode_cmdReject_v_clear : decode ⟨true, PState.awaitCmd⟩ 0b00001010010#11 = .ok (.cmdReject .z) := by decide
theorem test_decode_readId0 : decode ⟨true, PState.read 0⟩ 0b00100000000#11 = .ok (.readId0 (.byte 0x00#8)) := by decide
theorem test_decode_readId1 : decode ⟨true, PState.read 1⟩ 0b00110000001#11 = .ok (.readId1 (.byte 0x81#8)) := by decide
theorem test_decode_readAddrMsb : decode ⟨true, PState.read 2⟩ 0b00100010101#11 = .ok (.readAddrMsb (.byte 0x15#8)) := by decide
theorem test_decode_readAddrLsb : decode ⟨true, PState.read 3⟩ 0b00000000000#11 = .ok (.readAddrLsb .z) := by decide
theorem test_decode_readAck0 : decode ⟨true, PState.read 4⟩ 0b00111111111#11 = .ok (.readAck0 (.byte 0xFF#8)) := by decide
theorem test_decode_readAck1 : decode ⟨true, PState.read 5⟩ 0b00100000000#11 = .ok (.readAck1 (.byte 0x00#8)) := by decide
theorem test_decode_readEchoMsb : decode ⟨true, PState.read 6⟩ 0b00110000001#11 = .ok (.readEchoMsb (.byte 0x81#8)) := by decide
theorem test_decode_readEchoLsb : decode ⟨true, PState.read 7⟩ 0b00100010101#11 = .ok (.readEchoLsb (.byte 0x15#8)) := by decide
theorem test_decode_readData : decode ⟨true, PState.read 8⟩ 0b00000000000#11 = .ok (.readData .z) := by decide
theorem test_decode_readChecksum : decode ⟨true, PState.read 136⟩ 0b00111111111#11 = .ok (.readChecksum (.byte 0xFF#8)) := by decide
theorem test_decode_readStatus : decode ⟨true, PState.read 137⟩ 0b00100000000#11 = .ok (.readStatus (.byte 0x00#8)) := by decide
theorem test_decode_writeId0 : decode ⟨true, PState.write 0⟩ 0b00110000001#11 = .ok (.writeId0 (.byte 0x81#8)) := by decide
theorem test_decode_writeId1 : decode ⟨true, PState.write 1⟩ 0b00100010101#11 = .ok (.writeId1 (.byte 0x15#8)) := by decide
theorem test_decode_writeAddrMsb : decode ⟨true, PState.write 2⟩ 0b00000000000#11 = .ok (.writeAddrMsb .z) := by decide
theorem test_decode_writeAddrLsb : decode ⟨true, PState.write 3⟩ 0b00111111111#11 = .ok (.writeAddrLsb (.byte 0xFF#8)) := by decide
theorem test_decode_writeData : decode ⟨true, PState.write 4⟩ 0b00100000000#11 = .ok (.writeData (.byte 0x00#8)) := by decide
theorem test_decode_writeChecksum : decode ⟨true, PState.write 132⟩ 0b00110000001#11 = .ok (.writeChecksum (.byte 0x81#8)) := by decide
theorem test_decode_writeAck0 : decode ⟨true, PState.write 133⟩ 0b00100010101#11 = .ok (.writeAck0 (.byte 0x15#8)) := by decide
theorem test_decode_writeAck1 : decode ⟨true, PState.write 134⟩ 0b00000000000#11 = .ok (.writeAck1 .z) := by decide
theorem test_decode_writeStatus : decode ⟨true, PState.write 135⟩ 0b00111111111#11 = .ok (.writeStatus (.byte 0xFF#8)) := by decide
theorem test_decode_identStep0 : decode ⟨true, PState.ident 0⟩ 0b00100000000#11 = .ok (.identStep0 (.byte 0x00#8)) := by decide
theorem test_decode_identStep1 : decode ⟨true, PState.ident 1⟩ 0b00110000001#11 = .ok (.identStep1 (.byte 0x81#8)) := by decide
theorem test_decode_identStep2 : decode ⟨true, PState.ident 2⟩ 0b00100010101#11 = .ok (.identStep2 (.byte 0x15#8)) := by decide
theorem test_decode_identStep3 : decode ⟨true, PState.ident 3⟩ 0b00000000000#11 = .ok (.identStep3 .z) := by decide
theorem test_decode_identStep4 : decode ⟨true, PState.ident 4⟩ 0b00111111111#11 = .ok (.identStep4 (.byte 0xFF#8)) := by decide
theorem test_decode_identStep5 : decode ⟨true, PState.ident 5⟩ 0b00100000000#11 = .ok (.identStep5 (.byte 0x00#8)) := by decide
theorem test_decode_identStep6 : decode ⟨true, PState.ident 6⟩ 0b00110000001#11 = .ok (.identStep6 (.byte 0x81#8)) := by decide
theorem test_decode_identStep7 : decode ⟨true, PState.ident 7⟩ 0b00100010101#11 = .ok (.identStep7 (.byte 0x15#8)) := by decide
theorem test_decode_readData_last : decode ⟨true, PState.read 135⟩ 0b00011111111#11 = .ok (.readData .z) := by decide
theorem test_decode_writeData_last : decode ⟨true, PState.write 131⟩ 0b00100010001#11 = .ok (.writeData (.byte 0x11#8)) := by decide

/-- 30_encoding.md R71: the encodings of the same words. -/
theorem test_encode_words :
    encode .powerOn = 0x200#11 ∧ encode .powerOff = 0x400#11 ∧ encode .frameStart = 0x181#11 ∧
      encode (.writeData (.byte 0x15#8)) = 0x115#11 ∧ encode (.idleIgnore .z) = 0x000#11 := by decide

/-- 70_reset_and_hazards.md R276: an illegal tag and an illegal step select no row. -/
theorem test_decode_illegal :
    decode ⟨true, ⟨0b101#3, 0x00#8⟩⟩ 0x181#11 = .error (.illegalState ⟨0b101#3, 0x00#8⟩) ∧
      decode ⟨true, PState.ident 8⟩ 0x181#11 = .error (.illegalState (PState.ident 8)) := by decide

/-- What the host asks of bare words (log 9). -/
theorem test_table_word :
    decodeTableWord 16 0x181 = some .frameStart ∧ decodeTableWord 16 0x152 = some .cmdRead ∧
      decodeTableWord 16 0x200 = some .powerOn ∧ decodeTableWord 16 0x100 = some (.xferUnpowered (.byte 0x00#8)) ∧
      decodeTableWord 16 0x800 = none := by decide

/-! ### Single steps -/

/-- A powered card in `p`, with the registers of an open frame (10_state.md R26 to R28). -/
def standing (p : PState) (address : BitVec 16) (checksum : Byte) (count : BitVec 8) : State :=
  { State.reset with poweredOn := true, pstate := p, address := address, checksum := checksum, byteCounter := count }

/-- The state after an answer. -/
def after : Result → Option State
  | .next t => some t
  | _ => none

/-- One operation on a card: its response word, with the field of the next state that `f` reads. -/
def oneOp {α : Type} (w : OpWord) (s : State) (f : State → α) : Option (Option RespWord × α) :=
  (after (issue (.op w) s)).map fun t => (t.response.bind responseWord, f t)

/-- V-P1. -/
theorem test_powerOn : oneOp 0x200#11 State.reset (fun t => (t.poweredOn, t.flag, t.pstate)) =
    some (some 0x200#10, (true, 0x08#8, PState.idle)) := by decide
/-- V-P6: a failing POWER_ON resets nothing. -/
theorem test_powerOn_powered : oneOp 0x200#11 (standing (PState.read 5) 0x0115 0x14 0) (·.pstate) =
    some (some 0x000#10, PState.read 5) := by decide
/-- V-P3: POWER_OFF keeps `pstate`. -/
theorem test_powerOff : oneOp 0x400#11 (standing (PState.write 2) 0 0 0) (fun t => (t.poweredOn, t.pstate)) =
    some (some 0x200#10, (false, PState.write 2)) := by decide
theorem test_powerOff_unpowered : oneOp 0x400#11 State.reset (·.poweredOn) = some (some 0x000#10, false) := by decide
/-- V-E6: refused. -/
theorem test_reservedOp11 : after (issue (.op 0x600#11) State.reset) = none := by decide
/-- V-P2. -/
theorem test_xferUnpowered : oneOp 0x181#11 State.reset (·.pstate) = some (some 0x000#10, PState.idle) := by decide

/-- V-D1. -/
theorem test_frameStart : oneOp 0x181#11 (standing (PState.idle) 0 0 0) (·.pstate) =
    some (some 0x200#10, PState.awaitCmd) := by decide
/-- V-D2. -/
theorem test_idleIgnore : oneOp 0x152#11 (standing (PState.idle) 0 0 0) (·.pstate) =
    some (some 0x000#10, PState.idle) := by decide
/-- V-D8. -/
theorem test_cmdRead : oneOp 0x152#11 (standing (PState.awaitCmd) 0 0 0) (·.pstate) =
    some (some 0x308#10, PState.read 0) := by decide
/-- V-D9. -/
theorem test_cmdWrite : oneOp 0x157#11 (standing (PState.awaitCmd) 0 0 0) (·.pstate) =
    some (some 0x308#10, PState.write 0) := by decide
/-- V-D10. -/
theorem test_cmdIdentify : oneOp 0x153#11 (standing (PState.awaitCmd) 0 0 0) (·.pstate) =
    some (some 0x308#10, PState.ident 0) := by decide
/-- V-D12. -/
theorem test_cmdReject : oneOp 0x181#11 (standing (PState.awaitCmd) 0 0 0) (·.pstate) =
    some (some 0x108#10, PState.idle) := by decide
/-- V-H1. -/
theorem test_readId0 : oneOp 0x181#11 (standing (PState.read 0) 0 0 0) (·.pstate) =
    some (some 0x35A#10, PState.read 1) := by decide
/-- V-H1. -/
theorem test_readId1 : oneOp 0x153#11 (standing (PState.read 1) 0 0 0) (·.pstate) =
    some (some 0x35D#10, PState.read 2) := by decide
/-- 42_read_sector.md R142, the example. -/
theorem test_readAddrMsb : oneOp 0x101#11 (standing (PState.read 2) 0 0 0) (fun t => (t.pstate, t.address, t.checksum)) =
    some (some 0x300#10, (PState.read 3, 0x0100#16, 0x01#8)) := by decide
/-- V-R8: `Z` is 0xFF. -/
theorem test_readAddrMsb_z : oneOp 0x000#11 (standing (PState.read 2) 0 0 0) (fun t => (t.address, t.checksum)) =
    some (some 0x300#10, (0xFF00#16, 0xFF#8)) := by decide
/-- 42_read_sector.md R143, the example. -/
theorem test_readAddrLsb : oneOp 0x115#11 (standing (PState.read 3) 0x0100 0x01 9) (fun t => (t.pstate, t.address, t.checksum, t.byteCounter)) =
    some (some 0x300#10, (PState.read 4, 0x0115#16, 0x14#8, 0#8)) := by decide
/-- V-R4. -/
theorem test_readAddrLsb_poison : oneOp 0x100#11 (standing (PState.read 3) 0x0400 0x04 0) (fun t => (t.address, t.checksum)) =
    some (some 0x300#10, (0xFFFF#16, 0x04#8)) := by decide
/-- V-R1. -/
theorem test_readAck0 : oneOp 0x100#11 (standing (PState.read 4) 0x0115 0x14 0) (·.pstate) =
    some (some 0x35C#10, PState.read 5) := by decide
/-- V-R1. -/
theorem test_readAck1 : oneOp 0x100#11 (standing (PState.read 5) 0x0115 0x14 0) (·.pstate) =
    some (some 0x35D#10, PState.read 6) := by decide
/-- V-R1. -/
theorem test_readEchoMsb : oneOp 0x100#11 (standing (PState.read 6) 0x0115 0x14 0) (·.pstate) =
    some (some 0x301#10, PState.read 7) := by decide
/-- V-R3: the last valid sector. -/
theorem test_readEchoLsb : oneOp 0x100#11 (standing (PState.read 7) 0x03FF 0xFC 0) (·.pstate) =
    some (some 0x3FF#10, PState.read 8) := by decide
/-- V-H3. -/
theorem test_readEchoLsb_poison : oneOp 0x181#11 (standing (PState.read 7) 0xFFFF 0x05 0) (·.pstate) =
    some (some 0x1FF#10, PState.idle) := by decide
/-- V-R10, t = 11: byte 1 of sector 0x115 is 0x02; the checksum 0x15 of {0x01, 0x15, 0x01} takes it. -/
theorem test_readData :
    oneOp 0x000#11 { standing (PState.read 9) 0x0115 0x15 1 with storage := [(35456, 0x01#8), (35457, 0x02#8)] }
      (fun t => (t.pstate, t.checksum, t.byteCounter)) =
    some (some 0x302#10, (PState.read 10, 0x17#8, 2#8)) := by decide
/-- V-R11, t = 137: the last byte of the store. -/
theorem test_readData_last :
    oneOp 0x100#11 { standing (PState.read 135) 0x03FF 0x83 127 with storage := [(131071, 0x7F#8)] }
      (fun t => (t.pstate, t.checksum, t.byteCounter)) =
    some (some 0x37F#10, (PState.read 136, 0xFC#8, 128#8)) := by decide
/-- V-R10, t = 138. -/
theorem test_readChecksum : oneOp 0x100#11 (standing (PState.read 136) 0x0115 0x94 128) (·.pstate) =
    some (some 0x394#10, PState.read 137) := by decide
/-- V-R1, t = 139. -/
theorem test_readStatus : oneOp 0x100#11 (standing (PState.read 137) 0x0115 0x14 128) (·.pstate) =
    some (some 0x147#10, PState.idle) := by decide
/-- W4, t = 2. -/
theorem test_writeId0 : oneOp 0x100#11 (standing (PState.write 0) 0 0 0) (·.pstate) =
    some (some 0x35A#10, PState.write 1) := by decide
/-- W4, t = 3. -/
theorem test_writeId1 : oneOp 0x100#11 (standing (PState.write 1) 0 0 0) (·.pstate) =
    some (some 0x35D#10, PState.write 2) := by decide
/-- V-H2: MSB 0x81. -/
theorem test_writeAddrMsb : oneOp 0x181#11 (standing (PState.write 2) 0 0 0) (fun t => (t.pstate, t.address, t.checksum)) =
    some (some 0x300#10, (PState.write 3, 0x8100#16, 0x81#8)) := by decide
/-- V-H7: `Z` is 0xFF. -/
theorem test_writeAddrLsb : oneOp 0x000#11 (standing (PState.write 3) 0 0 0) (fun t => (t.pstate, t.address, t.checksum)) =
    some (some 0x300#10, (PState.write 4, 0x00FF#16, 0xFF#8)) := by decide
/-- V-W7, first data byte: `Z` is stored as 0xFF (`PER_BYTE`). -/
theorem test_writeData_perByte :
    oneOp 0x000#11 (standing (PState.write 4) 0x0002 0x02 0) (fun t => (t.pstate, t.checksum, t.byteCounter, t.storage.read 256)) =
    some (some 0x300#10, (PState.write 5, 0xFD#8, 1#8, 0xFF#8)) := by decide
/-- P5, # 7 under `AT_END`: to `wbuf`, not to the store. -/
theorem test_writeData_atEnd :
    oneOp 0x122#11 { standing (PState.write 5) 0x0007 0x16 1 with writeCommit := .atEnd }
      (fun t => (t.storage.read 897, t.wbuf[1]?, t.wbuf[0]?)) =
    some (some 0x300#10, (0x00#8, some 0x22#8, some 0x00#8)) := by decide +kernel
/-- V-W1: the right checksum. -/
theorem test_writeChecksum : oneOp 0x194#11 (standing (PState.write 132) 0x0115 0x94 128) (fun t => (t.pstate, t.checksum)) =
    some (some 0x300#10, (PState.write 133, 0x00#8)) := by decide
/-- W4, t = 135. -/
theorem test_writeAck0 : oneOp 0x100#11 (standing (PState.write 133) 0 0 0) (·.pstate) =
    some (some 0x35C#10, PState.write 134) := by decide
/-- W4, t = 136. -/
theorem test_writeAck1 : oneOp 0x100#11 (standing (PState.write 134) 0 0 0) (·.pstate) =
    some (some 0x35D#10, PState.write 135) := by decide
/-- V-W2. -/
theorem test_writeStatus : oneOp 0x100#11 (standing (PState.write 135) 0x0115 0xFF 128) (·.pstate) =
    some (some 0x14E#10, PState.idle) := by decide
/-- V-W6: bad sector wins. -/
theorem test_writeStatus_poison : oneOp 0x100#11 (standing (PState.write 135) 0xFFFF 0x84 128) (·.pstate) =
    some (some 0x1FF#10, PState.idle) := by decide
/-- V-I1. -/
theorem test_identStep0 : oneOp 0x100#11 (standing (PState.ident 0) 0 0 0) (·.pstate) =
    some (some 0x35A#10, PState.ident 1) := by decide
/-- V-I2. -/
theorem test_identStep1 : oneOp 0x000#11 (standing (PState.ident 1) 0 0 0) (·.pstate) =
    some (some 0x35D#10, PState.ident 2) := by decide
/-- V-I3. -/
theorem test_identStep2 : oneOp 0x1FF#11 (standing (PState.ident 2) 0 0 0) (·.pstate) =
    some (some 0x35C#10, PState.ident 3) := by decide
/-- V-I1. -/
theorem test_identStep3 : oneOp 0x100#11 (standing (PState.ident 3) 0 0 0) (·.pstate) =
    some (some 0x35D#10, PState.ident 4) := by decide
/-- V-I2. -/
theorem test_identStep4 : oneOp 0x000#11 (standing (PState.ident 4) 0 0 0) (·.pstate) =
    some (some 0x304#10, PState.ident 5) := by decide
/-- V-I3. -/
theorem test_identStep5 : oneOp 0x1FF#11 (standing (PState.ident 5) 0 0 0) (·.pstate) =
    some (some 0x300#10, PState.ident 6) := by decide
/-- V-I1. -/
theorem test_identStep6 : oneOp 0x100#11 (standing (PState.ident 6) 0 0 0) (·.pstate) =
    some (some 0x300#10, PState.ident 7) := by decide
/-- V-I2. -/
theorem test_identStep7 : oneOp 0x000#11 (standing (PState.ident 7) 0 0 0) (·.pstate) =
    some (some 0x180#10, PState.idle) := by decide

/-- 20_memory.md R64: block 15, byte 8191, is the last byte of the store. -/
theorem test_view_write_block : (after (issue (.view (.writeBlock 15 8191 0xAB#8)) State.reset)).map (·.storage) =
    some [(131071, 0xAB#8)] := by decide
/-- 20_memory.md R52: sector 1, byte 2, is offset 130. -/
theorem test_view_read_sector :
    (after (issue (.view (.readSector 1 2)) { State.reset with storage := [(130, 0x5A#8)] })).map (·.response) =
    some (some (.viewed 0x5A#8)) := by decide
/-- 20_memory.md R64: refused during an open frame. -/
theorem test_view_open_frame :
    after (issue (.view (.readSector 0 0)) (standing PState.awaitCmd 0 0 0)) = none := by decide

/-- W6: one card, two slots. -/
def mutualExclusion : HostResult (Bool × Bool × Bool × Bool) :=
  thenDo (insertCard 0 0 (World.create [State.reset] 2)) fun w1 a =>
    thenDo (insertCard 1 0 w1) fun w2 b =>
      thenDo (removeCard 0 w2) fun w3 c => thenDo (insertCard 1 0 w3) fun w4 d => .next (w4, (a, b, c, d))

theorem test_slot_mutual_exclusion :
    (match mutualExclusion with | .next (_, r) => r == (true, false, true, true) | _ => false) = true := by decide
/-- V-S10. -/
theorem test_slot_sector_index :
    (match readSector 0 0x10000 (World.create [] 1) with | .refused r => r == .sectorIndex 0x10000 | _ => false) = true := by
  decide

/-! ### Witnesses: for each statement with hypotheses, states and operands that meet them all -/

/-- A card that has issued what is given. -/
def issued (s : State) (rest : List Request) : State := { s with pending := rest }

/-- A step on a concrete card answers. -/
def answers (s : State) : Bool := match step s with | .next _ => true | _ => false

theorem answers_next {s : State} (h : answers s = true) : ∃ t, step s = .next t := by
  unfold answers at h
  split at h
  · next t e => exact ⟨t, e⟩
  · contradiction

theorem witness_PowerOnSetsFlagAndIdle : (standing (PState.read 5) 0 0 0).poweredOn = true ∧ State.reset.poweredOn = false := by
  decide
theorem witness_PowerOffClearsPowerOnly : State.reset.poweredOn = false ∧ (standing (PState.write 2) 0 0 0).poweredOn = true := by
  decide

/-- The first and the last word of each of the three ranges of 30_encoding.md R88. -/
theorem witness_ReservedWordIsRefused : ∀ w ∈ [0x600#11, 0x7FF#11, 0x201#11, 0x3FF#11, 0x401#11, 0x5FF#11],
    (issued State.reset [.op w]).pending = [.op w] ∧
      (w.extractLsb' 9 2 = 0b11#2 ∨
        ((w.extractLsb' 9 2 = 0b01#2 ∨ w.extractLsb' 9 2 = 0b10#2) ∧ w.extractLsb' 0 9 ≠ 0#9)) := by decide

/-- The first and the last TRANSFER word. -/
theorem witness_transfer_words : (0x000#11).extractLsb' 9 2 = 0b00#2 ∧ (0x1FF#11).extractLsb' 9 2 = 0b00#2 := by decide

theorem witness_UnpoweredTransferAnswersAbsent : State.reset.poweredOn = false ∧ (0x1FF#11).extractLsb' 9 2 = 0b00#2 := by
  decide

/-- The words on both sides of 0x181, and the first and the last. -/
theorem witness_IdleRowsRun : (standing PState.idle 0 0 0).poweredOn = true ∧ (standing PState.idle 0 0 0).pstate = PState.idle ∧
    (∀ w ∈ [0x000#11, 0x180#11, 0x182#11, 0x1FF#11], w.extractLsb' 9 2 = 0b00#2 ∧ w ≠ 0x181#11) ∧
    Tri.z ≠ .byte 0x81#8 ∧ Tri.byte 0x80#8 ≠ .byte 0x81#8 := by decide

/-- The words next to the three commands, and the first and the last. -/
theorem witness_AwaitRowsRun :
    (standing PState.awaitCmd 0 0 0).poweredOn = true ∧ (standing PState.awaitCmd 0 0 0).pstate = PState.awaitCmd ∧
    (∀ w ∈ [0x000#11, 0x151#11, 0x154#11, 0x156#11, 0x158#11, 0x1FF#11],
      w.extractLsb' 9 2 = 0b00#2 ∧ w ≠ 0x152#11 ∧ w ≠ 0x157#11 ∧ w ≠ 0x153#11) ∧
    (∀ cmd ∈ [Tri.z, .byte 0x51#8, .byte 0x54#8, .byte 0x81#8],
      cmd ≠ .byte 0x52#8 ∧ cmd ≠ .byte 0x57#8 ∧ cmd ≠ .byte 0x53#8) := by decide

/-- The hypotheses of `RowRuns p` are met in every `p`, and in both branches of step 7 of a read (`POISON`, the last sector). -/
theorem witness_RowRuns (p : PState) (a : BitVec 16) :
    (standing p a 0 0).poweredOn = true ∧ (standing p a 0 0).pstate = p ∧ (standing p a 0 0).address = a := ⟨rfl, rfl, rfl⟩
theorem witness_ReadTagRowsRun : (standing (PState.read 5) 0 0 0).pstate = PState.read 5 := rfl
theorem witness_ReadAddressRowsRun : (standing (PState.read 3) 0 0 0).pstate = PState.read 3 := rfl
theorem witness_ReadEchoRowsRun : (standing (PState.read 7) 0xFFFF 0 0).pstate = PState.read 7 ∧ 0x03FF#16 ≠ 0xFFFF#16 := by
  decide
theorem witness_ReadEndRowsRun : (standing (PState.read 137) 0 0 0).pstate = PState.read 137 := rfl
theorem witness_WriteTagRowsRun : (standing (PState.write 134) 0 0 0).pstate = PState.write 134 := rfl
theorem witness_WriteAddressAndChecksumRowsRun : (standing (PState.write 132) 0 0 0).pstate = PState.write 132 := rfl
theorem witness_IdentifyRowsRun : (standing (PState.ident 7) 0 0 0).pstate = PState.ident 7 := rfl

/-- The first and the last data step, the first and the last sector. -/
theorem witness_ReadDataRowRuns :
    ((standing (PState.read 8) 0x0000 0 0).pstate.tag = 0b010#3 ∧ 8 ≤ (PState.read 8).step.toNat ∧
      (0x0000#16).toNat ≤ 0x3FF ∧ (0#8).toNat = (PState.read 8).step.toNat - 8) ∧
    ((standing (PState.read 135) 0x03FF 0 127).pstate.tag = 0b010#3 ∧ (PState.read 135).step.toNat ≤ 135 ∧
      (0x03FF#16).toNat ≤ 0x3FF ∧ (127#8).toNat = (PState.read 135).step.toNat - 8) := by decide

/-- A card in a write, with a value of `WRITE_COMMIT`. -/
def writing (c : Config.WriteCommit) (k : BitVec 8) (address : BitVec 16) (checksum : Byte) (count : BitVec 8) : State :=
  { standing (PState.write k) address checksum count with writeCommit := c }

/-- Every clause: the first and the last data step, `POISON` and the last sector, all three values of `WRITE_COMMIT`. -/
theorem witness_WriteDataRowRuns (c : Config.WriteCommit) (a : BitVec 16) (h : a = 0xFFFF#16 ∨ a.toNat ≤ 0x3FF) :
    ((writing c 4 a 0 0).poweredOn = true ∧ (writing c 4 a 0 0).pstate.tag = 0b011#3 ∧
      4 ≤ (writing c 4 a 0 0).pstate.step.toNat ∧ (writing c 4 a 0 0).pstate.step.toNat ≤ 131 ∧
      ((writing c 4 a 0 0).address = 0xFFFF#16 ∨ (writing c 4 a 0 0).address.toNat ≤ 0x3FF) ∧
      (writing c 4 a 0 0).byteCounter.toNat = (writing c 4 a 0 0).pstate.step.toNat - 4 ∧
      (writing c 4 a 0 0).storage.wf = true) ∧
    ((writing c 131 a 0 127).poweredOn = true ∧ (writing c 131 a 0 127).pstate.tag = 0b011#3 ∧
      4 ≤ (writing c 131 a 0 127).pstate.step.toNat ∧ (writing c 131 a 0 127).pstate.step.toNat ≤ 131 ∧
      ((writing c 131 a 0 127).address = 0xFFFF#16 ∨ (writing c 131 a 0 127).address.toNat ≤ 0x3FF) ∧
      (writing c 131 a 0 127).byteCounter.toNat = (writing c 131 a 0 127).pstate.step.toNat - 4 ∧
      (writing c 131 a 0 127).storage.wf = true) :=
  ⟨⟨rfl, rfl, (by decide : 4 ≤ 4), (by decide : 4 ≤ 131), h, rfl, rfl⟩, rfl, rfl, (by decide : 4 ≤ 131),
    (by decide : 131 ≤ 131), h, rfl, rfl⟩
theorem witness_addresses : 0xFFFF#16 = 0xFFFF#16 ∧ (0x03FF#16).toNat ≤ 0x3FF := by decide

theorem witness_WriteStatusRowRuns (c : Config.WriteCommit) (a : BitVec 16) (h : a = 0xFFFF#16 ∨ a.toNat ≤ 0x3FF) :
    (writing c 135 a 0 128).poweredOn = true ∧ (writing c 135 a 0 128).pstate = PState.write 135 ∧
      ((writing c 135 a 0 128).address = 0xFFFF#16 ∨ (writing c 135 a 0 128).address.toNat ≤ 0x3FF) ∧
      (writing c 135 a 0 128).storage.wf = true := ⟨rfl, rfl, h, rfl⟩

theorem witness_AddressDecodePoisonsOutOfRange :
    0x03FF < (0x0400#16).toNat ∧ 0x03FF < (0xFFFF#16).toNat ∧ (0x03FF#16).toNat ≤ 0x03FF ∧ (0x0000#16).toNat ≤ 0x03FF := by
  decide
theorem witness_AddressIsAssembledMsbFirst :
    (∃ t u, exec (.readAddrMsb (.byte 0x03#8)) (standing (PState.read 2) 0 0 0) = .next t ∧ exec (.readAddrLsb .z) t = .next u) ∧
    ∃ t u, exec (.writeAddrMsb .z) (standing (PState.write 2) 0 0 0) = .next t ∧
      exec (.writeAddrLsb (.byte 0x00#8)) t = .next u := ⟨⟨_, _, rfl, rfl⟩, _, _, rfl, rfl⟩
theorem witness_VerdictPrefersBadSector : 0x03FF#16 ≠ 0xFFFF#16 ∧ 0x01#8 ≠ 0x00#8 := by decide

/-- A row of each kind: no operand, an operand, the catch-all rows, a range of steps at both its ends, a reserved word. -/
theorem witness_DecodeOfEncode : ∀ x ∈ [(⟨false, PState.read 9⟩, Instr.powerOn), (⟨true, PState.idle⟩, .reservedOp11 0x201#11),
    (⟨false, PState.idle⟩, .xferUnpowered .z), (⟨true, PState.idle⟩, .idleIgnore (.byte 0x82#8)),
    (⟨true, PState.awaitCmd⟩, .cmdReject .z), (⟨true, PState.read 8⟩, .readData .z), (⟨true, PState.read 135⟩, .readData .z),
    (⟨true, PState.write 4⟩, .writeData .z), (⟨true, PState.write 131⟩, .writeData (.byte 0xFF#8)),
    (⟨true, PState.ident 7⟩, .identStep7 .z)],
    WellFormed x.2 = true ∧ selectedIn x.1 x.2 = true := by decide
/-- An absent byte with bits set, and a concrete byte. -/
theorem witness_DecodedRowIsSelected :
    decode ⟨true, PState.read 2⟩ 0x0AA#11 = .ok (.readAddrMsb .z) ∧
      decode ⟨true, PState.read 2⟩ 0x1AA#11 = .ok (.readAddrMsb (.byte 0xAA#8)) := by decide

theorem witness_StepRunsDecodedInstruction :
    (issued State.reset [.op 0x200#11]).pending = [.op 0x200#11] ∧ decode State.reset.context 0x200#11 = .ok .powerOn ∧
      (issued State.reset [.view (.readSector 0 0)]).pending = [.view (.readSector 0 0)] ∧ State.reset.pending = [] := by decide
/-- An illegal tag, and the first illegal step of each sub-sequence. -/
theorem witness_IllegalStateFaults : ∀ p ∈ [⟨0b101#3, 0#8⟩, PState.read 138, PState.write 136, PState.ident 8, ⟨0b000#3, 1#8⟩],
    (standing p 0 0 0).poweredOn = true ∧ p.legal = false ∧
      (issued (standing p 0 0 0) [.op 0x181#11]).pending.head? = some (.op 0x181#11) ∧ opField 0x181#11 = 0b00#2 := by decide

/-! Cards that keep the invariants, at the ends of the ranges. -/

theorem cardInv_reset : CardInv State.reset := by constructor <;> decide
theorem cardInv_idle : CardInv (standing PState.idle 0 0 0) := by constructor <;> decide
theorem cardInv_read136 : CardInv (standing (PState.read 136) 0x0115 0x14 128) := by constructor <;> decide
theorem cardInv_write0 : CardInv (standing (PState.write 0) 0 0 0) := by constructor <;> decide
theorem cardInv_write4 : CardInv (standing (PState.write 4) 0x0002 0x02 0) := by constructor <;> decide
theorem cardInv_write132 (c : Config.WriteCommit) :
    CardInv (writing c 132 0x0115 0x14 128) := by
  cases c <;> constructor <;> decide
theorem cardInv_ident7 : CardInv (standing (PState.ident 7) 0 0 0) := by constructor <;> decide

theorem cardInv_issued {s : State} (h : CardInv s) (rest : List Request) : CardInv (issued s rest) := by
  obtain ⟨a, b, c, d, e, f, g, i, j, k, l, m⟩ := h
  exact ⟨a, b, c, d, e, f, g, i, j, k, l, m⟩

theorem frameInv_idle : FrameInv (standing PState.idle 0 0 0) := by constructor <;> decide
theorem frameInv_read136 : FrameInv (standing (PState.read 136) 0x0115 0x14 128) := by constructor <;> decide +kernel
theorem frameInv_write132 : FrameInv (standing (PState.write 132) 0x0115 0x14 128) := by constructor <;> decide +kernel
theorem frameInv_issued {s : State} (h : FrameInv s) (rest : List Request) : FrameInv (issued s rest) := by
  obtain ⟨a, b, c⟩ := h
  exact ⟨a, b, c⟩

theorem next_transfer (s : State) (w : OpWord) (h : opField w = 0b00#2) : nextIsTransfer (issued s [.op w]) w := ⟨rfl, h⟩

theorem witness_StepAnswersFromEverySoundState : CardInv State.reset ∧ CardInv (issued (standing PState.idle 0 0 0) [.op 0x600#11]) :=
  ⟨cardInv_reset, cardInv_issued cardInv_idle _⟩

theorem witness_AckTellsWhetherTheFrameStaysOpen :
    (∃ t, nextIsTransfer (issued (standing PState.idle 0 0 0) [.op 0x181#11]) 0x181#11 ∧
      step (issued (standing PState.idle 0 0 0) [.op 0x181#11]) = .next t) ∧
    (standing PState.idle 0 0 0).poweredOn = true ∧
    (∃ t, nextIsTransfer (issued State.reset [.op 0x181#11]) 0x181#11 ∧ step (issued State.reset [.op 0x181#11]) = .next t) ∧
    State.reset.poweredOn = false :=
  ⟨⟨_, ⟨rfl, rfl⟩, rfl⟩, rfl, ⟨_, ⟨rfl, rfl⟩, rfl⟩, rfl⟩

/-- Each clause, at the ends of its range: `IDLE`, `AWAIT_CMD`, `READ(0)`, `READ(7)` poisoned, `READ(137)`, `WRITE(0)`,
`WRITE(135)`, `IDENT(0)`, `IDENT(7)`. -/
theorem witness_ProtocolStateAdvancesOneStep : ∀ s ∈ [standing PState.idle 0 0 0, standing PState.awaitCmd 0 0 0,
    standing (PState.read 0) 0 0 0, standing (PState.read 7) 0xFFFF 0 0, standing (PState.read 137) 0 0 0,
    standing (PState.write 0) 0 0 0, standing (PState.write 135) 0 0 0, standing (PState.ident 0) 0 0 0,
    standing (PState.ident 7) 0 0 0],
    s.poweredOn = true ∧ s.pstate.legal = true ∧ answers (issued s [.op 0x181#11]) = true ∧
      (issued s [.op 0x181#11]).pending.head? = some (.op 0x181#11) ∧ opField 0x181#11 = 0b00#2 := by decide +kernel

theorem witness_ResponseByteIgnoresItsOwnInput : ∀ s ∈ [standing PState.awaitCmd 0 0 0, standing (PState.write 2) 0 0 0],
    answers (issued s [.op 0x152#11]) = true ∧ answers (issued s [.op 0x000#11]) = true ∧
      (0x152#11).extractLsb' 9 2 = 0b00#2 ∧ (0x000#11).extractLsb' 9 2 = 0b00#2 := by decide +kernel

/-- Each clause at the ends of its ranges. -/
theorem witness_IgnoredInputHasNoEffect : ∀ p ∈ [PState.ident 0, PState.ident 7, PState.read 0, PState.read 1, PState.read 4,
    PState.read 137, PState.write 0, PState.write 1, PState.write 133, PState.write 135],
    (standing p 0 0 0).poweredOn = true ∧
      (p.tag = 0b100#3 ∨ (p.tag = 0b010#3 ∧ p.step ≠ 2#8 ∧ p.step ≠ 3#8) ∨
        (p.tag = 0b011#3 ∧ (p.step.toNat < 2 ∨ 132 < p.step.toNat))) := by decide

/-- Each clause: a `flag` that changes, a card switched on, a card switched off. -/
theorem witness_OnlyPowerOperationsWriteFlagAndPower :
    (∃ t, step (issued { State.reset with flag := 0x00#8 } [.op 0x200#11]) = .next t ∧ t.flag ≠ 0x00#8 ∧ t.poweredOn = true) ∧
    State.reset.poweredOn = false ∧
    ∃ t, step (issued (standing PState.idle 0 0 0) [.op 0x400#11]) = .next t ∧ t.poweredOn = false :=
  ⟨⟨_, rfl, by decide, rfl⟩, rfl, _, rfl, rfl⟩

theorem witness_OnlyPowerOnAndPoweredTransferWritePstate :
    (∃ t, step (issued { State.reset with pstate := PState.write 2 } [.op 0x200#11]) = .next t ∧ t.pstate ≠ PState.write 2) ∧
    ∃ t, step (issued (standing PState.idle 0 0 0) [.op 0x181#11]) = .next t ∧ t.pstate ≠ PState.idle :=
  ⟨⟨_, rfl, by decide⟩, _, rfl, by decide⟩

/-- A data step of a write, and a view write, each changing a byte. -/
theorem witness_OnlyWritesAndViewsChangeTheStore :
    (CardInv (issued (standing (PState.write 4) 0x0002 0x02 0) [.op 0x1FF#11]) ∧
      ∃ t, step (issued (standing (PState.write 4) 0x0002 0x02 0) [.op 0x1FF#11]) = .next t ∧
        t.storage.read 256 ≠ Memory.read [] 256) ∧
    CardInv (issued State.reset [.view (.writeSector 1 2 0xAB#8)]) ∧
      ∃ t, step (issued State.reset [.view (.writeSector 1 2 0xAB#8)]) = .next t ∧ t.storage.read 130 ≠ Memory.read [] 130 :=
  ⟨⟨cardInv_issued cardInv_write4 _, _, rfl, by decide⟩, cardInv_issued cardInv_reset _, _, rfl, by decide⟩

theorem witness_WriteCommitIsFixed : ∃ t, step (issued State.reset [.op 0x200#11]) = .next t := ⟨_, rfl⟩

theorem witness_ViewsReachTheirByteOrAreRefused :
    State.reset.poweredOn = false ∧ (standing PState.idle 0 0 0).pstate = PState.idle ∧ State.reset.storage.wf = true ∧
      frameOpen (standing PState.awaitCmd 0 0 0) := ⟨rfl, rfl, by decide, rfl, by decide⟩

theorem witness_CreationCopiesTheArray :
    (List.replicate 131072 0x00#8).length = 131072 ∧ (List.replicate 131071 0x00#8).length ≠ 131072 :=
  ⟨List.length_replicate, by rw [List.length_replicate]; decide⟩

theorem witness_StepKeepsCardInv : CardInv (issued (standing (PState.ident 7) 0 0 0) [.op 0x100#11]) ∧
    ∃ t, step (issued (standing (PState.ident 7) 0 0 0) [.op 0x100#11]) = .next t :=
  ⟨cardInv_issued cardInv_ident7 _, _, rfl⟩

theorem witness_StepKeepsFrameInv : CardInv (issued (standing (PState.read 136) 0x0115 0x14 128) [.op 0x100#11]) ∧
    FrameInv (issued (standing (PState.read 136) 0x0115 0x14 128) [.op 0x100#11]) ∧
    ∃ t, step (issued (standing (PState.read 136) 0x0115 0x14 128) [.op 0x100#11]) = .next t :=
  ⟨cardInv_issued cardInv_read136 _, frameInv_issued frameInv_read136 _, _, rfl⟩

theorem witness_ReadChecksumCoversTheSector :
    nextIsTransfer (issued (standing (PState.read 136) 0x0115 0x14 128) [.op 0x100#11]) 0x100#11 ∧
    (standing (PState.read 136) 0x0115 0x14 128).poweredOn = true := ⟨⟨rfl, rfl⟩, rfl⟩

/-- The right checksum of V-R1's sector, and a wrong one. -/
theorem witness_WriteVerdictComparesTheChecksum : ∀ w ∈ [0x114#11, 0x1EB#11],
    CardInv (issued (standing (PState.write 132) 0x0115 0x14 128) [.op w]) ∧
    FrameInv (issued (standing (PState.write 132) 0x0115 0x14 128) [.op w]) ∧
    (standing (PState.write 132) 0x0115 0x14 128).address ≠ 0xFFFF#16 ∧
    nextIsTransfer (issued (standing (PState.write 132) 0x0115 0x14 128) [.op w]) w ∧
    ∃ t, step (issued (standing (PState.write 132) 0x0115 0x14 128) [.op w]) = .next t := by
  intro w hw
  refine ⟨cardInv_issued (cardInv_write132 _) _, frameInv_issued frameInv_write132 _, by decide, ?_⟩
  rcases List.mem_cons.1 hw with rfl | hw
  · exact ⟨⟨rfl, rfl⟩, _, rfl⟩
  · rw [List.mem_singleton.1 hw]
    exact ⟨⟨rfl, rfl⟩, _, rfl⟩

/-- Two cards after one data byte 0x11 of a write to sector 7 (P5, # 6): in the store of the one, in the other's buffer. -/
def storedByte : State := { standing (PState.write 5) 0x0007 0x16 1 with storage := [(896, 0x11#8)] }

def bufferedByte : State :=
  { standing (PState.write 5) 0x0007 0x16 1 with
    writeCommit := .atEnd, wbuf := (Vector.replicate 128 0x00#8).setIfInBounds 0 0x11#8 }

theorem witness_WriteCommitValuesAgree :
    CardInv storedByte ∧ CardInv bufferedByte ∧ SameButCommit storedByte bufferedByte ∧ dataWaits bufferedByte ∧
      ¬(dataWaits bufferedByte ∧ bufferedByte.pending.head? = some (.op 0x400#11)) ∧
      ∃ t, step storedByte = .next t := by
  have waits : dataWaits bufferedByte := ⟨rfl, rfl, by decide, by decide, Or.inr ⟨rfl, by decide⟩⟩
  refine ⟨by constructor <;> decide, by constructor <;> decide, ?_, waits, fun h => absurd h.2 (by decide), _, rfl⟩
  refine ⟨rfl, rfl, rfl, rfl, rfl, rfl, rfl, rfl, rfl, ?_, ?_⟩
  · intro _ a ha
    have h : a = 896 := by
      have h1 : 896 ≤ a := ha.1
      have h2 : a < 896 + 1 := ha.2
      omega
    subst h
    decide +kernel
  · intro a ha
    have h : 896 ≠ a := by
      rintro rfl
      exact ha ⟨waits, by decide, by decide⟩
    show Memory.read [(896, 0x11#8)] a = Memory.read [] a
    simp [Memory.read, h]

/-- `WRITE(0)`, the longest drain, and `IDLE`, one of the shortest (V-H4). -/
theorem witness_DrainReachesIdle : CardInv (standing (PState.write 0) 0 0 0) ∧ CardInv (standing PState.idle 0 0 0) ∧
    (standing (PState.write 0) 0 0 0).poweredOn = true := ⟨cardInv_write0, cardInv_idle, rfl⟩

theorem witness_PowerCycleReturnsToIdle :
    (issued (standing (PState.write 2) 0 0 0) [.op 0x400#11, .op 0x200#11]).pending = [.op 0x400#11, .op 0x200#11] := by decide

/-- The last valid sector and the first bad one. -/
theorem witness_ReadFrameHasItsFullLength : ∀ ml ∈ [(0x103#11, 0x1FF#11), (0x104#11, 0x100#11)],
    ∃ ws : List OpWord, ws.length = 138 ∧ (∀ w ∈ ws, w.extractLsb' 9 2 = 0b00#2) ∧ ws[2]? = some ml.1 ∧ ws[3]? = some ml.2 ∧
      CardInv (issued (standing PState.idle 0 0 0) ((0x181#11 :: 0x152#11 :: ws).map Request.op)) := by
  intro ml hml
  refine ⟨0x100#11 :: 0x100#11 :: ml.1 :: ml.2 :: List.replicate 134 0x100#11, by simp, ?_, rfl, rfl, cardInv_issued cardInv_idle _⟩
  intro w hw
  simp only [List.mem_cons, List.mem_replicate, List.not_mem_nil, or_false] at hml hw
  rcases hml with rfl | rfl <;> rcases hw with rfl | rfl | rfl | rfl | ⟨-, rfl⟩ <;> rfl

theorem witness_WriteFrameHasItsFullLength :
    ∃ ws : List OpWord, ws.length = 136 ∧ (∀ w ∈ ws, w.extractLsb' 9 2 = 0b00#2) ∧
      CardInv (issued (standing PState.idle 0 0 0) ((0x181#11 :: 0x157#11 :: ws).map Request.op)) :=
  ⟨List.replicate 136 0x100#11, by simp, fun _ h => (List.mem_replicate.1 h).2 ▸ rfl, cardInv_issued cardInv_idle _⟩

/-- The words of a write frame after the command: an address, 128 data bytes 0x00, and the host's checksum. -/
def writeWords (msb lsb sum : OpWord) : List OpWord :=
  [0x100#11, 0x100#11, msb, lsb] ++ List.replicate 128 0x100#11 ++ [sum, 0x100#11, 0x100#11, 0x100#11]

/-- A card in `IDLE` with a value of `WRITE_COMMIT`, issued the whole frame. -/
def writeStart (c : Config.WriteCommit) (ws : List OpWord) : State :=
  issued { standing PState.idle 0 0 0 with writeCommit := c } ((0x181#11 :: 0x157#11 :: ws).map Request.op)

/-- The hypotheses of the two statements about what a whole write frame leaves and answers. -/
def meetsWrite (c : Config.WriteCommit) (ws : List OpWord) : Prop :=
  CardInv (writeStart c ws) ∧ (writeStart c ws).poweredOn = true ∧ (writeStart c ws).pstate = PState.idle ∧
    ws.length = 136 ∧ (∀ w ∈ ws, w.extractLsb' 9 2 = 0b00#2) ∧
    (writeStart c ws).pending = (0x181#11 :: 0x157#11 :: ws).map Request.op ++ []

theorem meetsWrite_of (c : Config.WriteCommit) (msb lsb sum : OpWord) (hm : opField msb = 0b00#2)
    (hl : opField lsb = 0b00#2) (hs : opField sum = 0b00#2) : meetsWrite c (writeWords msb lsb sum) := by
  refine ⟨cardInv_issued (by cases c <;> constructor <;> decide) _, rfl, rfl, by simp [writeWords], fun w hw => ?_,
    (List.append_nil _).symm⟩
  simp only [writeWords, List.mem_append, List.mem_cons, List.mem_replicate, List.not_mem_nil, or_false] at hw
  rcases hw with ((rfl | rfl | rfl | rfl) | ⟨-, rfl⟩) | rfl | rfl | rfl | rfl <;> first | assumption | rfl

/-- The last valid sector and the first bad one, under every `WRITE_COMMIT`. -/
theorem witness_CompletedWriteStoresItsData (c : Config.WriteCommit) :
    (meetsWrite c (writeWords 0x103#11 0x1FF#11 0x100#11) ∧ (sentByte (writeWords 0x103#11 0x1FF#11 0x100#11) 2 ++
      sentByte (writeWords 0x103#11 0x1FF#11 0x100#11) 3).toNat = 0x3FF) ∧
    meetsWrite c (writeWords 0x104#11 0x100#11 0x100#11) ∧ (sentByte (writeWords 0x104#11 0x100#11 0x100#11) 2 ++
      sentByte (writeWords 0x104#11 0x100#11 0x100#11) 3).toNat = 0x400 :=
  ⟨⟨meetsWrite_of c _ _ _ rfl rfl rfl, by decide +kernel⟩, meetsWrite_of c _ _ _ rfl rfl rfl, by decide +kernel⟩

/-- The host's checksum byte of `ws` is the XOR of the address and data bytes sent. -/
def rightChecksum (ws : List OpWord) : Prop :=
  sentByte ws 132 = sentByte ws 2 ^^^ sentByte ws 3 ^^^ xorUpTo (fun j => sentByte ws (4 + j)) 128

/-- Sector 0x3FF with the right checksum 0xFC and with a wrong one (the bad sector is the witness above). -/
theorem witness_WriteFrameAnswersItsVerdict (c : Config.WriteCommit) :
    (meetsWrite c (writeWords 0x103#11 0x1FF#11 0x1FC#11) ∧ rightChecksum (writeWords 0x103#11 0x1FF#11 0x1FC#11)) ∧
    meetsWrite c (writeWords 0x103#11 0x1FF#11 0x100#11) ∧ ¬rightChecksum (writeWords 0x103#11 0x1FF#11 0x100#11) := by
  refine ⟨⟨meetsWrite_of c _ _ _ rfl rfl rfl, ?_⟩, meetsWrite_of c _ _ _ rfl rfl rfl, ?_⟩ <;> unfold rightChecksum <;>
    decide +kernel

/-- One card in a slot, one outside, and an empty slot. -/
def twoCards : World := ⟨[standing PState.idle 0 0 0, State.reset], [some 0, none]⟩

/-- The world keeps the rule, and each of the three routines answers in it. -/
theorem witness_SlotRoutinesKeepSlotInv :
    SlotInv twoCards ∧ (∃ r, insertCard 1 1 twoCards = .next r) ∧ (∃ r, removeCard 0 twoCards = .next r) ∧
      ∃ r, slotTransfer 0 (.byte 0x81#8) twoCards = .next r := by
  refine ⟨⟨?_, ?_⟩, ⟨_, rfl⟩, ⟨_, rfl⟩, _, rfl⟩
  · intro k c h
    match k, h with
    | 0, h =>
      cases h
      exact ⟨_, rfl, rfl⟩
    | 1, h => exact absurd h (by simp [twoCards, World.held])
    | k + 2, h => exact absurd h (by simp [twoCards, World.held])
  · intro k j c hk hj
    match k, j, hk, hj with
    | 0, 0, _, _ => rfl
    | 1, _, hk, _ => exact absurd hk (by simp [twoCards, World.held])
    | k + 2, _, hk, _ => exact absurd hk (by simp [twoCards, World.held])
    | 0, 1, _, hj => exact absurd hj (by simp [twoCards, World.held])
    | 0, j + 2, _, hj => exact absurd hj (by simp [twoCards, World.held])

theorem witness_PoweredCardCannotBeInserted :
    twoCards.cards[0]? = some (standing PState.idle 0 0 0) ∧ (standing PState.idle 0 0 0).poweredOn = true := ⟨rfl, rfl⟩


end Sys2Proof.Tests
end

/-!
Who writes `pstate` (10_state.md R25): what an operation word can select, and what each kind of operation can leave in
`pstate`.
-/

namespace Sys2Proof.Machine

/-! ### What an operation word selects -/

/-- A word is its two fields (30_encoding.md R71). -/
theorem eq_of_opField_of_lowField (v w : OpWord) (hop : opField v = opField w) (hlow : lowField v = lowField w) :
    v = w := by
  have hhigh := congrArg BitVec.toNat hop
  have hbits := congrArg BitVec.toNat hlow
  simp only [opField, lowField, BitVec.extractLsb'_toNat, Nat.shiftRight_eq_div_pow] at hhigh hbits
  exact BitVec.eq_of_toNat_eq (by omega)

/-- The words that are not reserved: the TRANSFER words, and each POWER operation's own word (30_encoding.md R71,
R88). -/
theorem opField_cases_of_not_reserved (w : OpWord) (h : isReservedWord w = false) :
    opField w = 0b00#2 ∨ w = powerOnWord ∨ w = powerOffWord := by
  have hops : ∀ op : BitVec 2, op ≠ 0b11#2 → op = 0b00#2 ∨ op = 0b01#2 ∨ op = 0b10#2 := by decide
  simp only [isReservedWord, Bool.or_eq_false_iff, Bool.and_eq_false_imp, Bool.or_eq_true, beq_iff_eq,
    beq_eq_false_iff_ne, bne_eq_false_iff_eq] at h
  obtain ⟨hne, hlow⟩ := h
  obtain hop | hop | hop := hops (opField w) hne
  · exact .inl hop
  · exact .inr (.inl (eq_of_opField_of_lowField w powerOnWord hop (hlow (.inl hop))))
  · exact .inr (.inr (eq_of_opField_of_lowField w powerOffWord hop (hlow (.inr hop))))

/-- What a word can be decoded to: a reserved row, one of the two POWER rows, or the row of a TRANSFER. -/
theorem decode_eq_ok (c : Context) (w : OpWord) (i : Instr) (h : decode c w = .ok i) :
    i = .reservedOp11 w ∨ (w = powerOnWord ∧ i = .powerOn) ∨ (w = powerOffWord ∧ i = .powerOff) ∨
      (opField w = 0b00#2 ∧ transferRow c (triField w) = .ok i) := by
  cases hw : isReservedWord w with
  | true => exact .inl (by simpa [decode, hw, eq_comm] using h)
  | false =>
    obtain hop | rfl | rfl := opField_cases_of_not_reserved w hw
    · exact .inr (.inr (.inr ⟨hop, decode_transfer c w hop ▸ h⟩))
    · exact .inr (.inl ⟨rfl, (Except.ok.inj h).symm⟩)
    · exact .inr (.inr (.inl ⟨rfl, (Except.ok.inj h).symm⟩))

/-- On an unpowered card every TRANSFER selects XFER_UNPOWERED (40_power_and_transfer.md R102). -/
theorem transferRow_unpowered (c : Context) (cmd : Tri) (h : c.poweredOn = false) :
    transferRow c cmd = .ok (.xferUnpowered cmd) := by
  simp [transferRow, h]

/-! ### What each kind of operation leaves in `pstate` -/

/-- POWER_ON keeps `pstate` on a powered card and writes `IDLE` on an unpowered one (R100). -/
theorem pstate_of_exec_powerOn (s t : State) (h : exec .powerOn s = .next t) :
    t.pstate = s.pstate ∨ (s.poweredOn = false ∧ t.pstate = PState.idle) := by
  obtain ⟨-, rfl⟩ | ⟨hoff, rfl⟩ := (exec_powerOn_eq_next s t).1 h
  · exact .inl rfl
  · exact .inr ⟨hoff, rfl⟩

/-- POWER_OFF keeps `pstate` (R101). -/
theorem exec_powerOff_keeps_pstate (s t : State) (h : exec .powerOff s = .next t) : t.pstate = s.pstate := by
  obtain ⟨-, rfl⟩ | ⟨-, rfl⟩ := (exec_powerOff_eq_next s t).1 h <;> rfl

/-- A TRANSFER on an unpowered card keeps `pstate` (R102). -/
theorem exec_xferUnpowered_keeps_pstate (cmd : Tri) (s t : State) (h : exec (.xferUnpowered cmd) s = .next t) :
    t.pstate = s.pstate := by
  obtain ⟨-, rfl⟩ := (exec_xferUnpowered_eq_next cmd s t).1 h
  rfl

/-- A view operation keeps `pstate` (20_memory.md R64). -/
theorem execView_keeps_pstate (v : View) (s t : State) (h : execView v s = .next t) : t.pstate = s.pstate := by
  obtain ⟨-, -, rfl | ⟨b, rfl⟩⟩ := execView_eq_next v s t h <;> rfl

/-- Settles O36: a step runs a view, a reserved word, a POWER row or a TRANSFER row, and only POWER_ON of an unpowered
card and a TRANSFER of a powered one can leave another `pstate`. -/
theorem onlyPowerOnAndPoweredTransferWritePstate : Obligations.OnlyPowerOnAndPoweredTransferWritePstate := by
  intro s t hstep hne
  obtain ⟨-, rfl⟩ | ⟨w, rest, i, hpend, hdec, hexec⟩ | ⟨v, rest, -, hview⟩ := step_eq_next s t hstep
  · exact absurd rfl hne
  · have hhead : s.pending.head? = some (.op w) := by rw [hpend]; rfl
    obtain rfl | ⟨rfl, rfl⟩ | ⟨rfl, rfl⟩ | ⟨hop, hrow⟩ := decode_eq_ok s.context w i hdec
    · exact absurd hexec (exec_reservedOp11_ne_next _ t w)
    · obtain hkeep | ⟨hoff, hidle⟩ := pstate_of_exec_powerOn _ t hexec
      · exact absurd hkeep hne
      · exact .inl ⟨hhead, hoff, hidle⟩
    · exact absurd (exec_powerOff_keeps_pstate _ t hexec) hne
    · cases hpow : s.poweredOn with
      | true => exact .inr ⟨rfl, w, hhead, hop⟩
      | false =>
        rw [transferRow_unpowered s.context _ hpow] at hrow
        cases hrow
        exact absurd (exec_xferUnpowered_keeps_pstate _ _ t hexec) hne
  · exact absurd (execView_keeps_pstate v _ t hview) hne

end Sys2Proof.Machine

/-!
The encoding of the operation port (30_encoding.md): what a step makes of an operation word, the reserved words, the bits of
an absent byte, the two address steps, the response words, and the positions of a frame that ignore their input.
-/

namespace Sys2Proof.Machine

/-! ### A step on an operation word -/

/-- What the step makes of what the decoder answers: it runs the row, or faults with the illegal encoding. -/
def runDecoded (d : Except DecodeError Instr) (s : State) : Result :=
  match d with
  | .ok i => exec i s
  | .error (.illegalState p) => .fault (.illegalState p)

@[simp] theorem runDecoded_ok (i : Instr) (s : State) : runDecoded (.ok i) s = exec i s := rfl

/-- A step on an operation word runs what the word decodes to in the state it meets (30_encoding.md R70). -/
theorem step_op (s : State) (w : OpWord) (rest : List Request) (h : s.pending = .op w :: rest) :
    step s = runDecoded (decode s.context w) (s.setPending rest) := by
  have htake : nextRequest s = some (.op w, s.setPending rest) := (nextRequest_eq_some s _ _).2 ⟨rest, h, rfl⟩
  rw [step, htake]
  rfl

/-- Two words that run alike once decoded are one step. -/
theorem step_op_congr (s : State) (w v : OpWord) (rest : List Request)
    (h : runDecoded (decode s.context w) (s.setPending rest) = runDecoded (decode s.context v) (s.setPending rest)) :
    step { s with pending := .op w :: rest } = step { s with pending := .op v :: rest } :=
  calc step { s with pending := .op w :: rest }
    _ = runDecoded (decode s.context w) (s.setPending rest) := step_op { s with pending := _ } w rest rfl
    _ = runDecoded (decode s.context v) (s.setPending rest) := h
    _ = step { s with pending := .op v :: rest } := (step_op { s with pending := _ } v rest rfl).symm

/-! ### Reserved words -/

/-- The reserved words, field by field (30_encoding.md R88). -/
theorem isReservedWord_iff (w : OpWord) :
    isReservedWord w = true ↔
      opField w = 0b11#2 ∨ ((opField w = 0b01#2 ∨ opField w = 0b10#2) ∧ lowField w ≠ 0#9) := by
  simp [isReservedWord]

/-- A reserved word decodes to its own row in every context. -/
theorem decode_reserved (c : Context) (w : OpWord) (h : isReservedWord w = true) :
    decode c w = .ok (.reservedOp11 w) := if_pos h

theorem exec_reservedOp11 (w : OpWord) (s : State) :
    exec (.reservedOp11 w) s = .refused (.reservedOperation w) := rfl

/-- Settles O3: a reserved word decodes to RESERVED_OP11 in every context, and that row refuses with the word. -/
theorem reservedWordIsRefused : Obligations.ReservedWordIsRefused := by
  refine ⟨exec_reservedOp11, fun s w rest hpend hres => ?_⟩
  rw [step_op s w rest hpend, decode_reserved _ w ((isReservedWord_iff w).2 hres), runDecoded_ok, exec_reservedOp11]

/-! ### The tri-state byte of a TRANSFER word -/

/-- The word `{op, V, B}` with `op` = 00 and `V` = 1 is the byte `B` (30_encoding.md R72). -/
theorem triField_present (b : Byte) : triField (0b001#3 ++ b) = .byte b := triField_xferWord (.byte b)

/-- `V` is bit 8: where it is 0 the word holds no byte, whatever its bits `B` (30_encoding.md R72). -/
theorem triField_absent (b : Byte) : triField (0b000#3 ++ b) = .z := by
  have hv : (0b000#3 ++ b : OpWord).getLsbD 8 = false := BitVec.getLsbD_append
  exact if_neg (by rw [hv]; decide)

/-- The bits `V` and `B` lie below the field `op`. -/
theorem opField_absent (b : Byte) : opField (0b000#3 ++ b) = 0b00#2 := by
  revert b
  decide

/-- Settles O26: a TRANSFER word is decoded by its tri-state byte alone, and the byte of `{0, B}` is `Z` for every `B`. -/
theorem absentByteBitsAreIgnored : Obligations.AbsentByteBitsAreIgnored := by
  refine ⟨triField_present, triField_absent, fun s b rest => step_op_congr s _ _ rest ?_⟩
  have hz : triField 0x000#11 = .z := triField_absent 0#8
  rw [decode_transfer _ _ (opField_absent b), decode_transfer _ 0x000#11 (opField_absent 0#8), triField_absent, hz]

/-! ### The address steps -/

@[simp] theorem takeMsb_address (cmd : Tri) (s : State) : (takeMsb cmd s).address = addressOfMsb (conc cmd) := rfl
@[simp] theorem takeMsb_checksum (cmd : Tri) (s : State) : (takeMsb cmd s).checksum = conc cmd := rfl
@[simp] theorem takeLsb_address (cmd : Tri) (s : State) :
    (takeLsb cmd s).address = decodeAddress (withLsb s.address (conc cmd)) := rfl
@[simp] theorem takeLsb_checksum (cmd : Tri) (s : State) : (takeLsb cmd s).checksum = s.checksum ^^^ conc cmd := rfl
@[simp] theorem takeLsb_byteCounter (cmd : Tri) (s : State) : (takeLsb cmd s).byteCounter = 0#8 := rfl

/-- `{m, 0x00} | zext_16(l)` is `{m, l}` (30_encoding.md R80). -/
theorem withLsb_addressOfMsb (m l : Byte) : withLsb (addressOfMsb m) l = m ++ l := by
  have hl : (l.setWidth 16).toNat = l.toNat := BitVec.toNat_setWidth_of_le (by decide)
  apply BitVec.eq_of_toNat_eq
  rw [withLsb, addressOfMsb, BitVec.toNat_or, hl, BitVec.toNat_append m 0x00#8, BitVec.toNat_append m l]
  simp

/-- The LSB step on a card that has taken the MSB `m` (30_encoding.md R80). -/
theorem takeLsb_of_msb (t : State) (m : Byte) (l : Tri) (haddr : t.address = addressOfMsb m) (hsum : t.checksum = m) :
    (takeLsb l t).address = decodeAddress (m ++ conc l) ∧ (takeLsb l t).checksum = m ^^^ conc l ∧
      (takeLsb l t).byteCounter = 0#8 := by
  rw [takeLsb_address, takeLsb_checksum, haddr, hsum, withLsb_addressOfMsb]
  exact ⟨rfl, rfl, rfl⟩

/-- Settles O18: in a read and in a write, the LSB row runs `takeLsb` on a card that `takeMsb` left. -/
theorem addressIsAssembledMsbFirst : Obligations.AddressIsAssembledMsbFirst := by
  rintro s t u m l - (⟨hmsb, hlsb⟩ | ⟨hmsb, hlsb⟩)
  · obtain ⟨-, rfl⟩ := (exec_readAddrMsb_eq_next m s t).1 hmsb
    obtain ⟨-, rfl⟩ := (exec_readAddrLsb_eq_next l _ u).1 hlsb
    exact takeLsb_of_msb _ (conc m) l (takeMsb_address m s) (takeMsb_checksum m s)
  · obtain ⟨-, rfl⟩ := (exec_writeAddrMsb_eq_next m s t).1 hmsb
    obtain ⟨-, rfl⟩ := (exec_writeAddrLsb_eq_next l _ u).1 hlsb
    exact takeLsb_of_msb _ (conc m) l (takeMsb_address m s) (takeMsb_checksum m s)

/-! ### Response words -/

/-- The fields of a word `{ACK, DV, D}` (30_encoding.md R73). -/
theorem fields_of_append (ack : Bool) (dv : BitVec 1) (d : Byte) :
    (BitVec.ofBool ack ++ (dv ++ d)).getLsbD 9 = ack ∧ (BitVec.ofBool ack ++ (dv ++ d)).getLsbD 8 = dv.getLsbD 0 ∧
      (BitVec.ofBool ack ++ (dv ++ d)).extractLsb' 0 8 = d := by
  refine ⟨BitVec.getLsbD_append.trans (by simp), BitVec.getLsbD_append.trans BitVec.getLsbD_append, ?_⟩
  calc (BitVec.ofBool ack ++ (dv ++ d)).extractLsb' 0 8
    _ = (dv ++ d).extractLsb' 0 8 := BitVec.extractLsb'_append_eq_of_add_le (by decide)
    _ = d := BitVec.extractLsb'_append_eq_right

/-- Settles O21: each response word is some `{ACK, DV, D}`, with `DV` and `D` both 0 where no byte is given. -/
theorem responseWordsHaveTheirFields : Obligations.ResponseWordsHaveTheirFields := fun flag =>
  ⟨fun b => ⟨_, rfl, fields_of_append flag 1#1 b⟩, ⟨_, rfl, fields_of_append flag 0#1 0x00#8⟩,
    ⟨_, rfl, fields_of_append flag 0#1 0x00#8⟩⟩

/-! ### The positions that ignore their input -/

/-- The positions of 30_encoding.md R76 to R78 at which the card ignores its input: the whole of identify, and every
read and write step but the address steps, the write's data steps and its checksum step. -/
def ignoresInput (p : PState) : Prop :=
  p.tag = 0b100#3 ∨ (p.tag = 0b010#3 ∧ p.step ≠ 2#8 ∧ p.step ≠ 3#8) ∨
    (p.tag = 0b011#3 ∧ (p.step.toNat < 2 ∨ 132 < p.step.toNat))

/-- Two instructions with one meaning. -/
def sameMeaning (i j : Instr) : Prop := ∀ s : State, exec i s = exec j s

/-- At a step of a read other than the two address steps, two inputs select one row, whose meaning has no use for its
operand; or they select none. -/
theorem readRow_sameMeaning (k : BitVec 8) (x y : Tri) (hmsb : k ≠ 2) (hlsb : k ≠ 3) :
    Option.Rel sameMeaning (readRow k x) (readRow k y) := by
  simp only [readRow, if_neg hmsb, if_neg hlsb]
  split_ifs
  case neg => exact .none
  all_goals exact .some fun _ => rfl

/-- The same for a write, before its address steps and after its checksum step. -/
theorem writeRow_sameMeaning (k : BitVec 8) (x y : Tri) (h : k.toNat < 2 ∨ 132 < k.toNat) :
    Option.Rel sameMeaning (writeRow k x) (writeRow k y) := by
  obtain hlow | hhigh := h
  · have hk : k = 0 ∨ k = 1 := by bv_omega
    obtain rfl | rfl := hk <;> exact .some fun _ => rfl
  · have hne : ∀ j : BitVec 8, j.toNat ≤ 132 → k ≠ j := by
      rintro j hj rfl
      omega
    have hdata : ¬k.toNat ≤ 131 := by omega
    simp only [writeRow, if_neg hdata, if_neg (hne 0 (by decide)), if_neg (hne 1 (by decide)),
      if_neg (hne 2 (by decide)), if_neg (hne 3 (by decide)), if_neg (hne 132 (by decide))]
    split_ifs
    case neg => exact .none
    all_goals exact .some fun _ => rfl

/-- The same for every step of identify. -/
theorem identRow_sameMeaning (k : BitVec 8) (x y : Tri) :
    Option.Rel sameMeaning (identRow k x) (identRow k y) := by
  unfold identRow
  split_ifs
  case neg => exact .none
  all_goals exact .some fun _ => rfl

theorem poweredRow_read (k : BitVec 8) (cmd : Tri) : poweredRow (PState.read k) cmd = readRow k cmd := rfl
theorem poweredRow_write (k : BitVec 8) (cmd : Tri) : poweredRow (PState.write k) cmd = writeRow k cmd := rfl
theorem poweredRow_ident (k : BitVec 8) (cmd : Tri) : poweredRow (PState.ident k) cmd = identRow k cmd := rfl

/-- At an ignored position the row of one input means what the row of any other does. -/
theorem poweredRow_sameMeaning (p : PState) (x y : Tri) (h : ignoresInput p) :
    Option.Rel sameMeaning (poweredRow p x) (poweredRow p y) := by
  obtain ⟨tag, k⟩ := p
  obtain hident | ⟨hread, hmsb, hlsb⟩ | ⟨hwrite, hstep⟩ := h
  · obtain rfl : tag = 0b100#3 := hident
    rw [poweredRow_ident, poweredRow_ident]
    exact identRow_sameMeaning k x y
  · obtain rfl : tag = 0b010#3 := hread
    rw [poweredRow_read, poweredRow_read]
    exact readRow_sameMeaning k x y hmsb hlsb
  · obtain rfl : tag = 0b011#3 := hwrite
    rw [poweredRow_write, poweredRow_write]
    exact writeRow_sameMeaning k x y hstep

/-- On a powered card, rows of one meaning run alike; where none is selected, the fault is the one of `pstate`. -/
theorem runDecoded_transferRow_congr (c : Context) (x y : Tri) (s : State) (hpow : c.poweredOn = true)
    (h : Option.Rel sameMeaning (poweredRow c.pstate x) (poweredRow c.pstate y)) :
    runDecoded (transferRow c x) s = runDecoded (transferRow c y) s := by
  simp only [transferRow, hpow, if_true]
  generalize poweredRow c.pstate x = i at h
  generalize poweredRow c.pstate y = j at h
  cases h with
  | none => rfl
  | some hij => exact hij s

/-- Settles O34: at an ignored position every input selects a row of the same meaning. -/
theorem ignoredInputHasNoEffect : Obligations.IgnoredInputHasNoEffect := by
  intro s w v rest hpow hw hv hpos
  refine step_op_congr s w v rest ?_
  rw [decode_transfer _ w hw, decode_transfer _ v hv]
  exact runDecoded_transferRow_congr _ _ _ _ hpow (poweredRow_sameMeaning s.pstate _ _ hpos)

end Sys2Proof.Machine

/-!
Power and transfer (40_power_and_transfer.md): the two power operations, a TRANSFER on an unpowered card, and how the `ack`
of a powered TRANSFER goes with the protocol state it leaves.
-/

namespace Sys2Proof.Machine

/-! ### The power operations, and a TRANSFER on an unpowered card -/

/-- The POWER words are decoded in every context (30_encoding.md R71, R91). -/
theorem decode_powerOnWord (c : Context) : decode c powerOnWord = .ok .powerOn := rfl

theorem decode_powerOffWord (c : Context) : decode c powerOffWord = .ok .powerOff := rfl

/-- Settles O1, on each power state from what POWER_ON answers there. -/
theorem powerOnSetsFlagAndIdle : Obligations.PowerOnSetsFlagAndIdle := fun s =>
  ⟨decode_powerOnWord s.context, fun hon => (exec_powerOn_eq_next s _).2 (.inl ⟨hon, rfl⟩),
    fun hoff => (exec_powerOn_eq_next s _).2 (.inr ⟨hoff, rfl⟩)⟩

/-- Settles O2, on each power state from what POWER_OFF answers there. -/
theorem powerOffClearsPowerOnly : Obligations.PowerOffClearsPowerOnly := fun s =>
  ⟨decode_powerOffWord s.context, fun hoff => (exec_powerOff_eq_next s _).2 (.inl ⟨hoff, rfl⟩),
    fun hon => (exec_powerOff_eq_next s _).2 (.inr ⟨hon, rfl⟩)⟩

/-- Settles O4: XFER_UNPOWERED answers `(0, Z)`, and an unpowered card's TRANSFER words all select it. -/
theorem unpoweredTransferAnswersAbsent : Obligations.UnpoweredTransferAnswersAbsent := by
  refine ⟨fun s cmd hoff => (exec_xferUnpowered_eq_next cmd s _).2 ⟨hoff, rfl⟩, fun s w hoff hop => ?_⟩
  rw [decode_transfer _ w hop, transferRow_unpowered s.context _ hoff]

/-! ### A step on a TRANSFER word -/

/-- A step on a TRANSFER word runs the row of its tri-state byte (30_encoding.md R71, R83). -/
theorem step_transfer (s : State) (w : OpWord) (h : nextIsTransfer s w) :
    ∃ rest, step s = runDecoded (transferRow s.context (triField w)) (s.setPending rest) := by
  obtain ⟨hhead, hop⟩ := h
  obtain ⟨rest, hpend⟩ := List.head?_eq_some_iff.1 hhead
  exact ⟨rest, by rw [step_op s w rest hpend, decode_transfer _ w hop]⟩

/-- On a powered card the row is the one that `pstate` selects, and there is one (R103). -/
theorem step_transfer_powered_eq_next (s t : State) (w : OpWord) (hpow : s.poweredOn = true) (hnext : nextIsTransfer s w)
    (h : step s = .next t) :
    ∃ rest i, poweredRow s.pstate (triField w) = some i ∧ exec i (s.setPending rest) = .next t := by
  obtain ⟨rest, hstep⟩ := step_transfer s w hnext
  rw [hstep, transferRow, State.context_poweredOn, if_pos hpow, State.context_pstate] at h
  cases hrow : poweredRow s.pstate (triField w) with
  | some i => exact ⟨rest, i, rfl, by rwa [hrow] at h⟩
  | none =>
    rw [hrow] at h
    exact absurd h (by simp [runDecoded])

/-- On an unpowered card a TRANSFER changes nothing but the response, which is `(0, Z)` (R102). -/
theorem step_transfer_unpowered_eq_next (s t : State) (w : OpWord) (hoff : s.poweredOn = false)
    (hnext : nextIsTransfer s w) (h : step s = .next t) :
    ∃ rest, t = (s.setPending rest).setResponse (some (.transfer false .z)) := by
  obtain ⟨rest, hstep⟩ := step_transfer s w hnext
  rw [hstep, transferRow_unpowered s.context _ hoff, runDecoded_ok] at h
  obtain ⟨-, ht⟩ := (exec_xferUnpowered_eq_next _ _ t).1 h
  exact ⟨rest, ht⟩

/-! ### What a powered TRANSFER can leave

A powered TRANSFER either closes the frame or keeps one open; which of the two, and in which state, is said here once for
each table of the decoder. -/

/-- The TRANSFER answered `ack = 0` and the card is in `IDLE`. -/
def LeavesIdle (t : State) : Prop := t.pstate = PState.idle ∧ ∃ d, t.response = some (.transfer false d)

/-- The TRANSFER answered `ack = 1` and the card is in `p`. -/
def LeavesOpen (p : PState) (t : State) : Prop := t.pstate = p ∧ ∃ d, t.response = some (.transfer true d)

/-- A rule that ends in `pstate <- IDLE ; respond(0, d)`. -/
theorem leavesIdle_of_eq {u t : State} {d : Tri}
    (h : t = (u.setPstate PState.idle).setResponse (some (.transfer false d))) : LeavesIdle t := by
  subst h
  exact ⟨rfl, d, rfl⟩

/-- A rule that ends in `pstate <- p ; respond(1, d)`. -/
theorem leavesOpen_of_eq {u t : State} {p : PState} {d : Tri}
    (h : t = (u.setPstate p).setResponse (some (.transfer true d))) : LeavesOpen p t := by
  subst h
  exact ⟨rfl, d, rfl⟩

/-- Where a read ends: at its last step, or at step 7 with a poisoned address (42_read_sector.md R148, R151). -/
def readEnds (k : BitVec 8) (address : BitVec 16) : Prop := k = 137 ∨ (k = 7 ∧ address = poison)

/-- `IDLE`: the frame-start byte opens a frame, any other input leaves `IDLE` (41_command_dispatch.md R120, R121). -/
theorem exec_idleRow_leaves (cmd : Tri) (s t : State) (h : exec (idleRow cmd) s = .next t) :
    LeavesIdle t ∨ LeavesOpen PState.awaitCmd t := by
  unfold idleRow at h
  split_ifs at h
  · exact .inr (leavesOpen_of_eq ((exec_frameStart_eq_next s t).1 h).2)
  · obtain ⟨⟨-, hidle, -⟩, rfl⟩ := (exec_idleIgnore_eq_next cmd s t).1 h
    exact .inl ⟨hidle, _, rfl⟩

/-- `AWAIT_CMD`: a command byte opens its sub-sequence, any other input ends the frame (R122 to R125). -/
theorem exec_awaitRow_leaves (cmd : Tri) (s t : State) (h : exec (awaitRow cmd) s = .next t) :
    LeavesIdle t ∨ LeavesOpen (PState.read 0) t ∨ LeavesOpen (PState.write 0) t ∨ LeavesOpen (PState.ident 0) t := by
  unfold awaitRow at h
  split_ifs at h
  · exact .inr (.inl (leavesOpen_of_eq ((exec_cmdRead_eq_next s t).1 h).2))
  · exact .inr (.inr (.inl (leavesOpen_of_eq ((exec_cmdWrite_eq_next s t).1 h).2)))
  · exact .inr (.inr (.inr (leavesOpen_of_eq ((exec_cmdIdentify_eq_next s t).1 h).2)))
  · exact .inl (leavesIdle_of_eq ((exec_cmdReject_eq_next cmd s t).1 h).2)

/-- `READ(k)` moves on to `READ(k + 1)`, or ends (42_read_sector.md). -/
theorem exec_readRow_leaves (k : BitVec 8) (cmd : Tri) (i : Instr) (s t : State) (hk : s.pstate = PState.read k)
    (hrow : readRow k cmd = some i) (h : exec i s = .next t) :
    (readEnds k s.address ∧ LeavesIdle t) ∨ (¬readEnds k s.address ∧ LeavesOpen (PState.read (k + 1)) t) := by
  obtain ⟨rfl, rfl⟩ | ⟨rfl, rfl⟩ | ⟨rfl, rfl⟩ | ⟨rfl, rfl⟩ | ⟨rfl, rfl⟩ | ⟨rfl, rfl⟩ | ⟨rfl, rfl⟩ | ⟨rfl, rfl⟩ |
    ⟨⟨hlo, hhi⟩, rfl⟩ | ⟨rfl, rfl⟩ | ⟨rfl, rfl⟩ := readRow_eq_some k cmd i hrow
  · exact .inr ⟨by simp [readEnds], leavesOpen_of_eq ((exec_readId0_eq_next cmd s t).1 h).2⟩
  · exact .inr ⟨by simp [readEnds], leavesOpen_of_eq ((exec_readId1_eq_next cmd s t).1 h).2⟩
  · exact .inr ⟨by simp [readEnds], leavesOpen_of_eq ((exec_readAddrMsb_eq_next cmd s t).1 h).2⟩
  · exact .inr ⟨by simp [readEnds], leavesOpen_of_eq ((exec_readAddrLsb_eq_next cmd s t).1 h).2⟩
  · exact .inr ⟨by simp [readEnds], leavesOpen_of_eq ((exec_readAck0_eq_next cmd s t).1 h).2⟩
  · exact .inr ⟨by simp [readEnds], leavesOpen_of_eq ((exec_readAck1_eq_next cmd s t).1 h).2⟩
  · exact .inr ⟨by simp [readEnds], leavesOpen_of_eq ((exec_readEchoMsb_eq_next cmd s t).1 h).2⟩
  · obtain ⟨-, ⟨haddr, ht⟩ | ⟨haddr, ht⟩⟩ := (exec_readEchoLsb_eq_next cmd s t).1 h
    · exact .inl ⟨.inr ⟨rfl, haddr⟩, leavesIdle_of_eq ht⟩
    · exact .inr ⟨by simp [readEnds, haddr], leavesOpen_of_eq ht⟩
  · obtain ⟨-, -, ht⟩ := (exec_readData_eq_next cmd s t).1 h
    rw [hk] at ht
    refine .inr ⟨?_, leavesOpen_of_eq ht⟩
    rintro (rfl | ⟨rfl, -⟩)
    · exact absurd hhi (by decide)
    · exact absurd hlo (by decide)
  · exact .inr ⟨by simp [readEnds], leavesOpen_of_eq ((exec_readChecksum_eq_next cmd s t).1 h).2⟩
  · exact .inl ⟨.inl rfl, leavesIdle_of_eq ((exec_readStatus_eq_next cmd s t).1 h).2⟩

/-- `WRITE(k)` moves on to `WRITE(k + 1)`, or ends at its last step (43_write_sector.md). -/
theorem exec_writeRow_leaves (k : BitVec 8) (cmd : Tri) (i : Instr) (s t : State) (hk : s.pstate = PState.write k)
    (hrow : writeRow k cmd = some i) (h : exec i s = .next t) :
    (k = 135 ∧ LeavesIdle t) ∨ (k ≠ 135 ∧ LeavesOpen (PState.write (k + 1)) t) := by
  obtain ⟨rfl, rfl⟩ | ⟨rfl, rfl⟩ | ⟨rfl, rfl⟩ | ⟨rfl, rfl⟩ | ⟨⟨-, hhi⟩, rfl⟩ | ⟨rfl, rfl⟩ | ⟨rfl, rfl⟩ | ⟨rfl, rfl⟩ |
    ⟨rfl, rfl⟩ := writeRow_eq_some k cmd i hrow
  · exact .inr ⟨by decide, leavesOpen_of_eq ((exec_writeId0_eq_next cmd s t).1 h).2⟩
  · exact .inr ⟨by decide, leavesOpen_of_eq ((exec_writeId1_eq_next cmd s t).1 h).2⟩
  · exact .inr ⟨by decide, leavesOpen_of_eq ((exec_writeAddrMsb_eq_next cmd s t).1 h).2⟩
  · exact .inr ⟨by decide, leavesOpen_of_eq ((exec_writeAddrLsb_eq_next cmd s t).1 h).2⟩
  · obtain ⟨-, u, -, ht⟩ := (exec_writeData_eq_next cmd s t).1 h
    rw [hk] at ht
    refine .inr ⟨?_, leavesOpen_of_eq ht⟩
    rintro rfl
    exact absurd hhi (by decide)
  · exact .inr ⟨by decide, leavesOpen_of_eq ((exec_writeChecksum_eq_next cmd s t).1 h).2⟩
  · exact .inr ⟨by decide, leavesOpen_of_eq ((exec_writeAck0_eq_next cmd s t).1 h).2⟩
  · exact .inr ⟨by decide, leavesOpen_of_eq ((exec_writeAck1_eq_next cmd s t).1 h).2⟩
  · obtain ⟨-, u, -, ht⟩ := (exec_writeStatus_eq_next cmd s t).1 h
    exact .inl ⟨rfl, leavesIdle_of_eq ht⟩

/-- `IDENT(k)` moves on to `IDENT(k + 1)`, or ends at its last step (44_identify.md). -/
theorem exec_identRow_leaves (k : BitVec 8) (cmd : Tri) (i : Instr) (s t : State) (hrow : identRow k cmd = some i)
    (h : exec i s = .next t) :
    (k = 7 ∧ LeavesIdle t) ∨ (k ≠ 7 ∧ LeavesOpen (PState.ident (k + 1)) t) := by
  obtain ⟨rfl, rfl⟩ | ⟨rfl, rfl⟩ | ⟨rfl, rfl⟩ | ⟨rfl, rfl⟩ | ⟨rfl, rfl⟩ | ⟨rfl, rfl⟩ | ⟨rfl, rfl⟩ | ⟨rfl, rfl⟩ :=
    identRow_eq_some k cmd i hrow
  · exact .inr ⟨by decide, leavesOpen_of_eq ((exec_identStep0_eq_next cmd s t).1 h).2⟩
  · exact .inr ⟨by decide, leavesOpen_of_eq ((exec_identStep1_eq_next cmd s t).1 h).2⟩
  · exact .inr ⟨by decide, leavesOpen_of_eq ((exec_identStep2_eq_next cmd s t).1 h).2⟩
  · exact .inr ⟨by decide, leavesOpen_of_eq ((exec_identStep3_eq_next cmd s t).1 h).2⟩
  · exact .inr ⟨by decide, leavesOpen_of_eq ((exec_identStep4_eq_next cmd s t).1 h).2⟩
  · exact .inr ⟨by decide, leavesOpen_of_eq ((exec_identStep5_eq_next cmd s t).1 h).2⟩
  · exact .inr ⟨by decide, leavesOpen_of_eq ((exec_identStep6_eq_next cmd s t).1 h).2⟩
  · exact .inl ⟨rfl, leavesIdle_of_eq ((exec_identStep7_eq_next cmd s t).1 h).2⟩

/-! ### The `ack` of a powered TRANSFER -/

/-- What R104 says of the state a powered TRANSFER answers. -/
def AckTells (t : State) : Prop :=
  ∃ (ack : Bool) (d : Tri), t.response = some (.transfer ack d) ∧ (ack = false ↔ t.pstate = PState.idle)

theorem LeavesIdle.ackTells {t : State} (h : LeavesIdle t) : AckTells t := by
  obtain ⟨hidle, d, hresp⟩ := h
  exact ⟨false, d, hresp, by simp [hidle]⟩

theorem LeavesOpen.ackTells {p : PState} {t : State} (h : LeavesOpen p t) (hp : p ≠ PState.idle) : AckTells t := by
  obtain ⟨rfl, d, hresp⟩ := h
  exact ⟨true, d, hresp, by simp [hp]⟩

/-- Only tag 000 is `IDLE`'s (10_state.md R24). -/
theorem ne_idle_of_tag {tag : BitVec 3} {k : BitVec 8} (h : tag ≠ 0b000#3) : (⟨tag, k⟩ : PState) ≠ PState.idle :=
  fun heq => h (congrArg PState.tag heq)

/-- Every row a powered TRANSFER can select answers an `ack` that tells whether the frame stays open (R104). -/
theorem exec_poweredRow_ackTells (cmd : Tri) (i : Instr) (s t : State) (hrow : poweredRow s.pstate cmd = some i)
    (h : exec i s = .next t) : AckTells t := by
  obtain ⟨-, rfl⟩ | ⟨-, rfl⟩ | ⟨hk, hread⟩ | ⟨hk, hwrite⟩ | ⟨-, hident⟩ := poweredRow_eq_some _ cmd i hrow
  · obtain hidle | hawait := exec_idleRow_leaves cmd s t h
    · exact hidle.ackTells
    · exact hawait.ackTells (ne_idle_of_tag (by decide))
  · obtain hidle | hread | hwrite | hident := exec_awaitRow_leaves cmd s t h
    · exact hidle.ackTells
    · exact hread.ackTells (ne_idle_of_tag (by decide))
    · exact hwrite.ackTells (ne_idle_of_tag (by decide))
    · exact hident.ackTells (ne_idle_of_tag (by decide))
  · obtain ⟨-, hidle⟩ | ⟨-, hopen⟩ := exec_readRow_leaves _ cmd i s t hk hread h
    · exact hidle.ackTells
    · exact hopen.ackTells (ne_idle_of_tag (by decide))
  · obtain ⟨-, hidle⟩ | ⟨-, hopen⟩ := exec_writeRow_leaves _ cmd i s t hk hwrite h
    · exact hidle.ackTells
    · exact hopen.ackTells (ne_idle_of_tag (by decide))
  · obtain ⟨-, hidle⟩ | ⟨-, hopen⟩ := exec_identRow_leaves _ cmd i s t hident h
    · exact hidle.ackTells
    · exact hopen.ackTells (ne_idle_of_tag (by decide))

/-- Settles O31: on a powered card by the row that `pstate` selects, on an unpowered one by XFER_UNPOWERED. -/
theorem ackTellsWhetherTheFrameStaysOpen : Obligations.AckTellsWhetherTheFrameStaysOpen := by
  refine fun s t w hnext hstep => ⟨fun hpow => ?_, fun hoff => ?_⟩
  · obtain ⟨rest, i, hrow, hexec⟩ := step_transfer_powered_eq_next s t w hpow hnext hstep
    exact exec_poweredRow_ackTells (triField w) i (s.setPending rest) t hrow hexec
  · obtain ⟨rest, rfl⟩ := step_transfer_unpowered_eq_next s t w hoff hnext hstep
    exact ⟨rfl, rfl⟩

end Sys2Proof.Machine

/-!
Command dispatch (41_command_dispatch.md): which TRANSFER words select which row in `IDLE` and in `AWAIT_CMD`, and what
those rows do.
-/

namespace Sys2Proof.Machine

/-! ### The word of a concrete byte -/

/-- Bits 10:8 of a TRANSFER word whose `V` is 1 (30_encoding.md R71, R72). -/
theorem extractLsb'_high_of_present (w : OpWord) (hop : opField w = 0b00#2) (hv : w.getLsbD 8 = true) :
    w.extractLsb' 8 3 = 0b001#3 := by
  have hbit : w.extractLsb' 8 1 = 1#1 := by rwa [BitVec.getLsbD_eq_extractLsb', beq_iff_eq] at hv
  calc w.extractLsb' 8 (2 + 1)
    _ = w.extractLsb' 9 2 ++ w.extractLsb' 8 1 := (BitVec.extractLsb'_append_extractLsb'_eq_extractLsb' rfl).symm
    _ = 0b00#2 ++ 1#1 := congrArg₂ _ hop hbit
    _ = 0b001#3 := rfl

/-- A TRANSFER word that carries a byte is that byte's word: only an absent byte leaves bits of its word free
(30_encoding.md R72). -/
theorem eq_xferWord_of_triField (w : OpWord) (b : Byte) (hop : opField w = 0b00#2) (h : triField w = .byte b) :
    w = xferWord (.byte b) := by
  unfold triField at h
  split_ifs at h with hv
  calc w
    _ = w.extractLsb' 8 3 ++ w.extractLsb' 0 8 := (@BitVec.extractLsb'_append_extractLsb' 3 8 w).symm
    _ = 0b001#3 ++ b := by rw [extractLsb'_high_of_present w hop hv, Tri.byte.inj h]

/-- So a TRANSFER word other than a byte's word does not carry that byte. -/
theorem triField_ne_byte (w : OpWord) (b : Byte) (hop : opField w = 0b00#2) (hne : w ≠ xferWord (.byte b)) :
    triField w ≠ .byte b := fun h => hne (eq_xferWord_of_triField w b hop h)

/-! ### The row of a powered TRANSFER word -/

/-- A TRANSFER word on a powered card decodes to the row that `pstate` selects (40_power_and_transfer.md R103). -/
theorem decode_powered (s : State) (w : OpWord) (i : Instr) (hon : s.poweredOn = true) (hop : opField w = 0b00#2)
    (hrow : poweredRow s.pstate (triField w) = some i) : decode s.context w = .ok i := by
  rw [decode_transfer _ w hop, transferRow, State.context_poweredOn, if_pos hon, State.context_pstate, hrow]

/-- The same for the word of a tri-state byte (30_encoding.md R91). -/
theorem decode_powered_xferWord (s : State) (cmd : Tri) (i : Instr) (hon : s.poweredOn = true)
    (hrow : poweredRow s.pstate cmd = some i) : decode s.context (xferWord cmd) = .ok i :=
  decode_powered s _ i hon (opField_xferWord cmd) (by rwa [triField_xferWord])

theorem poweredRow_idle (cmd : Tri) : poweredRow PState.idle cmd = some (idleRow cmd) := rfl
theorem poweredRow_awaitCmd (cmd : Tri) : poweredRow PState.awaitCmd cmd = some (awaitRow cmd) := rfl

/-- `IDLE` ignores every input but the frame-start byte (R121). -/
theorem idleRow_of_ne (cmd : Tri) (h : cmd ≠ .byte frameStartByte) : idleRow cmd = .idleIgnore cmd := if_neg h

/-- `AWAIT_CMD` rejects every input but the three command bytes (R125). -/
theorem awaitRow_of_ne (cmd : Tri) (hread : cmd ≠ .byte cmdReadByte) (hwrite : cmd ≠ .byte cmdWriteByte)
    (hident : cmd ≠ .byte cmdIdentifyByte) : awaitRow cmd = .cmdReject cmd := by
  rw [awaitRow, if_neg hread, if_neg hwrite, if_neg hident]

/-! ### The rows of `IDLE` and of `AWAIT_CMD` -/

/-- Settles O5: 0x181 is the word of the frame-start byte, and no other TRANSFER word carries that byte. -/
theorem idleRowsRun : Obligations.IdleRowsRun := by
  intro s hon hp
  have hrow (cmd : Tri) : poweredRow s.pstate cmd = some (idleRow cmd) := by rw [hp, poweredRow_idle]
  refine ⟨decode_powered_xferWord s (.byte frameStartByte) _ hon (hrow _), ?frameStart,
    fun w hop hne => ?decodeIgnore, fun cmd hne => ?idleIgnore⟩
  case frameStart => exact (exec_frameStart_eq_next s _).2 ⟨⟨hon, hp⟩, rfl⟩
  case decodeIgnore =>
    rw [decode_powered s w _ hon hop (hrow _), idleRow_of_ne _ (triField_ne_byte w frameStartByte hop hne)]
  case idleIgnore => exact (exec_idleIgnore_eq_next cmd s _).2 ⟨⟨hon, hp, hne⟩, rfl⟩

/-- Settles O6: the three words are those of the command bytes, and no other TRANSFER word carries one of them. -/
theorem awaitRowsRun : Obligations.AwaitRowsRun := by
  intro s hon hp
  have hrow (cmd : Tri) : poweredRow s.pstate cmd = some (awaitRow cmd) := by rw [hp, poweredRow_awaitCmd]
  refine ⟨decode_powered_xferWord s (.byte cmdReadByte) _ hon (hrow _),
    decode_powered_xferWord s (.byte cmdWriteByte) _ hon (hrow _),
    decode_powered_xferWord s (.byte cmdIdentifyByte) _ hon (hrow _), ?cmdRead, ?cmdWrite, ?cmdIdentify,
    fun w hop hread hwrite hident => ?decodeReject, fun cmd hread hwrite hident => ?cmdReject⟩
  case cmdRead => exact (exec_cmdRead_eq_next s _).2 ⟨⟨hon, hp⟩, rfl⟩
  case cmdWrite => exact (exec_cmdWrite_eq_next s _).2 ⟨⟨hon, hp⟩, rfl⟩
  case cmdIdentify => exact (exec_cmdIdentify_eq_next s _).2 ⟨⟨hon, hp⟩, rfl⟩
  case decodeReject =>
    rw [decode_powered s w _ hon hop (hrow _), awaitRow_of_ne _ (triField_ne_byte w cmdReadByte hop hread)
      (triField_ne_byte w cmdWriteByte hop hwrite) (triField_ne_byte w cmdIdentifyByte hop hident)]
  case cmdReject => exact (exec_cmdReject_eq_next cmd s _).2 ⟨⟨hon, hp, hread, hwrite, hident⟩, rfl⟩

end Sys2Proof.Machine

/-!
The read-sector sub-sequence (42_read_sector.md): the rule of each of its steps on every input, the address decode, and
the order in which a powered TRANSFER takes the protocol states.
-/

namespace Sys2Proof.Machine

/-! ### The order of the protocol states

The tables of `IDLE` and of `AWAIT_CMD` leave a choice of states; a step of a sub-sequence leaves `IDLE` where the
sub-sequence ends and one named state where it goes on. -/

theorem LeavesIdle.pstate_eq {t : State} (h : LeavesIdle t) : t.pstate = PState.idle := h.1

theorem LeavesOpen.pstate_eq {p : PState} {t : State} (h : LeavesOpen p t) : t.pstate = p := h.1

/-- A step of a sub-sequence leaves `IDLE` where the sub-sequence ends, and the step `p` where it goes on. -/
theorem pstate_eq_of_leaves {ends : Prop} [Decidable ends] {p : PState} {t : State}
    (h : (ends ∧ LeavesIdle t) ∨ (¬ends ∧ LeavesOpen p t)) : t.pstate = if ends then PState.idle else p := by
  obtain ⟨hends, hidle⟩ | ⟨hgoes, hopen⟩ := h
  · rw [if_pos hends, hidle.pstate_eq]
  · rw [if_neg hgoes, hopen.pstate_eq]

/-- Settles O32: `pstate` selects the table of the row that runs, and what a row of each table can leave is known. (That
`pstate` is legal is not used: a TRANSFER in an illegal one gives no next state.) -/
theorem protocolStateAdvancesOneStep : Obligations.ProtocolStateAdvancesOneStep := by
  intro s t w hon _ hnext hstep
  obtain ⟨rest, i, hrow, hexec⟩ := step_transfer_powered_eq_next s t w hon hnext hstep
  refine ⟨fun hp => ?idle, fun hp => ?awaitCmd, fun k hp => ?read, fun k hp => ?write, fun k hp => ?ident⟩
  all_goals rw [hp] at hrow
  case idle =>
    obtain rfl : idleRow (triField w) = i := Option.some.inj hrow
    exact (exec_idleRow_leaves _ _ t hexec).imp LeavesIdle.pstate_eq LeavesOpen.pstate_eq
  case awaitCmd =>
    obtain rfl : awaitRow (triField w) = i := Option.some.inj hrow
    exact (exec_awaitRow_leaves _ _ t hexec).imp LeavesIdle.pstate_eq
      (Or.imp LeavesOpen.pstate_eq (Or.imp LeavesOpen.pstate_eq LeavesOpen.pstate_eq))
  case read =>
    rw [poweredRow_read] at hrow
    exact pstate_eq_of_leaves (exec_readRow_leaves k _ i (s.setPending rest) t hp hrow hexec)
  case write =>
    rw [poweredRow_write] at hrow
    exact pstate_eq_of_leaves (exec_writeRow_leaves k _ i (s.setPending rest) t hp hrow hexec)
  case ident =>
    rw [poweredRow_ident] at hrow
    exact pstate_eq_of_leaves (exec_identRow_leaves k _ i (s.setPending rest) t hrow hexec)

/-! ### The rules of one protocol state -/

/-- The two halves of a rule: `pstate` selects its row on every input, and the row has its effect where it is selected. -/
theorem rowRuns_of_poweredRow {p : PState} {row : Tri → Instr} {effect : Tri → State → State}
    (hrow : ∀ cmd, poweredRow p cmd = some (row cmd))
    (hexec : ∀ cmd s, s.poweredOn = true ∧ s.pstate = p → exec (row cmd) s = .next (effect cmd s)) :
    RowRuns p row effect := by
  refine fun s hon hp => ⟨fun w hop => ?_, fun cmd => hexec cmd s ⟨hon, hp⟩⟩
  exact decode_powered s w _ hon hop (by rw [hp, hrow])

/-- Settles O7: steps 0, 1, 4 and 5 of a read, each from what its row answers. -/
theorem readTagRowsRun : Obligations.ReadTagRowsRun :=
  ⟨rowRuns_of_poweredRow (fun _ => rfl) fun cmd s hsel => (exec_readId0_eq_next cmd s _).2 ⟨hsel, rfl⟩,
    rowRuns_of_poweredRow (fun _ => rfl) fun cmd s hsel => (exec_readId1_eq_next cmd s _).2 ⟨hsel, rfl⟩,
    rowRuns_of_poweredRow (fun _ => rfl) fun cmd s hsel => (exec_readAck0_eq_next cmd s _).2 ⟨hsel, rfl⟩,
    rowRuns_of_poweredRow (fun _ => rfl) fun cmd s hsel => (exec_readAck1_eq_next cmd s _).2 ⟨hsel, rfl⟩⟩

/-- Settles O8: steps 2 and 3 of a read, which run `takeMsb` and `takeLsb`. -/
theorem readAddressRowsRun : Obligations.ReadAddressRowsRun :=
  ⟨rowRuns_of_poweredRow (fun _ => rfl) fun cmd s hsel => (exec_readAddrMsb_eq_next cmd s _).2 ⟨hsel, rfl⟩,
    rowRuns_of_poweredRow (fun _ => rfl) fun cmd s hsel => (exec_readAddrLsb_eq_next cmd s _).2 ⟨hsel, rfl⟩⟩

/-- Settles O9: step 6 of a read, and the two cases of step 7. -/
theorem readEchoRowsRun : Obligations.ReadEchoRowsRun := by
  refine ⟨rowRuns_of_poweredRow (fun _ => rfl) fun cmd s hsel => ?echoMsb,
    rowRuns_of_poweredRow (fun _ => rfl) fun cmd s hsel => ?echoLsb⟩
  case echoMsb => exact (exec_readEchoMsb_eq_next cmd s _).2 ⟨hsel, rfl⟩
  case echoLsb =>
    refine (exec_readEchoLsb_eq_next cmd s _).2 ⟨hsel, ?_⟩
    split_ifs with hpoison
    · exact .inl ⟨hpoison, rfl⟩
    · exact .inr ⟨hpoison, rfl⟩

/-- Settles O11: steps 136 and 137 of a read. -/
theorem readEndRowsRun : Obligations.ReadEndRowsRun :=
  ⟨rowRuns_of_poweredRow (fun _ => rfl) fun cmd s hsel => (exec_readChecksum_eq_next cmd s _).2 ⟨hsel, rfl⟩,
    rowRuns_of_poweredRow (fun _ => rfl) fun cmd s hsel => (exec_readStatus_eq_next cmd s _).2 ⟨hsel, rfl⟩⟩

/-! ### The data steps -/

/-- `READ(k)` with `8 <= k <= 135` selects READ_DATA (R149): the eight steps before it are other numbers. -/
theorem readRow_data (k : BitVec 8) (cmd : Tri) (hlo : 8 ≤ k.toNat) (hhi : k.toNat ≤ 135) :
    readRow k cmd = some (.readData cmd) := by
  have hne : ∀ j : BitVec 8, j.toNat < 8 → k ≠ j := by
    rintro j hj rfl
    omega
  simp only [readRow, if_pos hhi, if_neg (hne 0 (by decide)), if_neg (hne 1 (by decide)), if_neg (hne 2 (by decide)),
    if_neg (hne 3 (by decide)), if_neg (hne 4 (by decide)), if_neg (hne 5 (by decide)), if_neg (hne 6 (by decide)),
    if_neg (hne 7 (by decide))]

/-- A data byte of a sector lies inside the store (20_memory.md R52). -/
theorem dataOffset_lt_cardSize (s : State) (haddr : s.address.toNat ≤ 0x3FF) (hcount : s.byteCounter.toNat < 128) :
    dataOffset s < Config.cardSize := by
  simp only [dataOffset, sectorBase, Config.sectorSize, Config.cardSize]
  omega

/-- Settles O10: a data step selects READ_DATA, and the byte it addresses lies inside the store. -/
theorem readDataRowRuns : Obligations.ReadDataRowRuns := by
  intro s hon htag hlo hhi haddr hcount
  have hp : s.pstate = PState.read s.pstate.step := congrArg (PState.mk · s.pstate.step) htag
  refine ⟨fun w hop => decode_powered s w _ hon hop ?selects, fun cmd => ?runs⟩
  case selects => rw [hp, poweredRow_read, readRow_data _ _ hlo hhi]
  case runs =>
    have hstore : dataOffset s < Config.cardSize := dataOffset_lt_cardSize s haddr (by omega)
    exact (exec_readData_eq_next cmd s _).2 ⟨⟨hon, htag, hlo, hhi⟩, hstore, rfl⟩

/-! ### The address decode -/

/-- Settles O17: the decode compares the raw address with `MAX_SECTOR`, which is 0x3FF. -/
theorem addressDecodePoisonsOutOfRange : Obligations.AddressDecodePoisonsOutOfRange := by
  refine fun raw => ⟨fun habove => if_pos ?_, fun hbelow => if_neg ?_⟩
  · exact BitVec.lt_def.2 habove
  · exact fun habove => absurd (BitVec.lt_def.1 habove) (Nat.not_lt.2 hbelow)

end Sys2Proof.Machine

/-!
The write-sector sub-sequence (43_write_sector.md): the rule of each of its steps on every input, where a data byte goes
under each `WRITE_COMMIT`, and the verdict.
-/

namespace Sys2Proof.Machine

/-! ### The sector that a commit fills -/

/-- A sector number is not the poisoned address (10_state.md R26). -/
theorem ne_poison_of_le_maxSector {a : BitVec 16} (h : a.toNat ≤ 0x3FF) : a ≠ poison := by
  rintro rfl
  exact absurd h (by decide)

/-- The last sector ends where the store ends (20_memory.md R52). -/
theorem sectorBase_add_sectorSize_le (a : BitVec 16) (h : a.toNat ≤ 0x3FF) :
    sectorBase a + Config.sectorSize ≤ Config.cardSize := by
  simp only [sectorBase, Config.sectorSize, Config.cardSize]
  omega

/-- The buffer holds one sector (10_state.md R20). -/
theorem length_buffer (buf : Vector Byte 128) : buf.toList.length = Config.sectorSize := buf.length_toList

/-- Inside the sector, a run of the 128 buffered bytes reads as the buffer. -/
theorem Memory.read_writeRun_buffer (m : Memory) (base : Nat) (buf : Vector Byte 128) (j : Nat) (hj : j < 128)
    (hbase : base + Config.sectorSize ≤ Config.cardSize) (hm : m.wf = true) :
    some ((m.writeRun base buf.toList).read (base + j)) = buf[j]? := by
  have hin : base ≤ base + j ∧ base + j < base + Config.sectorSize := ⟨by omega, Nat.add_lt_add_left hj base⟩
  rw [Memory.read_writeRun m base _ _ (by rwa [length_buffer]) hm, length_buffer, if_pos hin, Nat.add_sub_cancel_left,
    Vector.getElem?_toList, Vector.getElem?_eq_getElem hj, Option.getD_some]

/-- Outside the sector, a run of the 128 buffered bytes changes nothing. -/
theorem Memory.read_writeRun_buffer_outside (m : Memory) (base : Nat) (buf : Vector Byte 128) (a : Nat)
    (ha : a < base ∨ base + Config.sectorSize ≤ a) (hbase : base + Config.sectorSize ≤ Config.cardSize)
    (hm : m.wf = true) :
    (m.writeRun base buf.toList).read a = m.read a := by
  rw [Memory.read_writeRun m base _ _ (by rwa [length_buffer]) hm, length_buffer, if_neg (by omega)]

/-- A commit to a sector of the card gives it the buffer, changes no byte outside it and keeps the canonical form (R177,
R181). -/
theorem commitBuffer_fills_sector (s : State) (n : BitVec 16) (hn : n.toNat ≤ 0x3FF) (hwf : s.storage.wf = true) :
    ∃ m, commitBuffer s (sectorBase n) = .next (s.setStorage m) ∧ m.wf = true ∧
      (∀ j < 128, some (m.read (sectorBase n + j)) = s.wbuf[j]?) ∧
      ∀ a, (a < sectorBase n ∨ sectorBase n + 128 ≤ a) → m.read a = s.storage.read a := by
  have hbase := sectorBase_add_sectorSize_le n hn
  refine ⟨_, (commitBuffer_eq_next s _ _).2 ⟨hbase, rfl⟩, ?_, fun j hj => ?_, fun a ha => ?_⟩
  · exact Memory.writeRun_wf _ _ _ (by rwa [length_buffer]) hwf
  · exact Memory.read_writeRun_buffer _ _ _ _ hj hbase hwf
  · exact Memory.read_writeRun_buffer_outside _ _ _ _ ha hbase hwf

/-! ### Where a data byte goes -/

/-- A poisoned address stores nothing (R177). -/
theorem storeDataByte_poison (b : Byte) (s : State) (h : s.address = poison) : storeDataByte b s = .next s := if_pos h

/-- `PER_BYTE` writes the byte to the store at once. -/
theorem storeDataByte_perByte (b : Byte) (s : State) (hvalid : s.address ≠ poison) (hc : s.writeCommit = .perByte)
    (hk : dataOffset s < Config.cardSize) :
    storeDataByte b s = .next (s.setStorage (s.storage.write (dataOffset s) b)) := by
  simp only [storeDataByte, if_neg hvalid, hc]
  exact (memWrite_eq_next s _ b _).2 ⟨hk, rfl⟩

/-- The state after a data byte has gone to the write buffer (R177). -/
def buffered (b : Byte) (s : State) : State := s.setWbuf (s.wbuf.setIfInBounds s.byteCounter.toNat b)

/-- `AFTER_DATA` and `AT_END` put the byte in the buffer, which `AFTER_DATA` commits after the last byte. -/
theorem storeDataByte_buffered (b : Byte) (s : State) (hvalid : s.address ≠ poison) (hc : s.writeCommit ≠ .perByte)
    (hi : s.byteCounter.toNat < Config.sectorSize) :
    storeDataByte b s = if s.writeCommit = .afterData ∧ s.pstate.step.toNat = 131
      then commitBuffer (buffered b s) (sectorBase s.address) else .next (buffered b s) := by
  have hbuffer : bufferByte s s.byteCounter.toNat b = .next (buffered b s) :=
    (bufferByte_eq_next s _ b _).2 ⟨hi, rfl⟩
  cases h : s.writeCommit with
  | perByte => exact absurd h hc
  | afterData => simp only [storeDataByte, if_neg hvalid, h, hbuffer, andThen_next, true_and]
  | atEnd => simp [storeDataByte, if_neg hvalid, h, hbuffer]

/-- The buffer holds the byte at its index. -/
theorem buffered_wbuf_same (b : Byte) (s : State) (hi : s.byteCounter.toNat < Config.sectorSize) :
    (buffered b s).wbuf[s.byteCounter.toNat]? = some b := by
  rw [buffered, State.setWbuf_wbuf, Vector.getElem?_setIfInBounds_self]
  exact if_pos hi

/-- The buffer holds at every other index what it held. -/
theorem buffered_wbuf_other (b : Byte) (s : State) (j : Nat) (hj : j ≠ s.byteCounter.toNat) :
    (buffered b s).wbuf[j]? = s.wbuf[j]? := by
  rw [buffered, State.setWbuf_wbuf, Vector.getElem?_setIfInBounds_ne hj.symm]

/-! ### The data steps -/

/-- `WRITE(k)` with `4 <= k <= 131` selects WRITE_DATA (R177): the four steps before it are other numbers. -/
theorem writeRow_data (k : BitVec 8) (cmd : Tri) (hlo : 4 ≤ k.toNat) (hhi : k.toNat ≤ 131) :
    writeRow k cmd = some (.writeData cmd) := by
  have hne : ∀ j : BitVec 8, j.toNat < 4 → k ≠ j := by
    rintro j hj rfl
    omega
  simp only [writeRow, if_pos hhi, if_neg (hne 0 (by decide)), if_neg (hne 1 (by decide)), if_neg (hne 2 (by decide)),
    if_neg (hne 3 (by decide))]

/-- Settles O14: a data step selects WRITE_DATA, whose outcome is that of storing the byte, in each of the cases of
`storeDataByte`. -/
theorem writeDataRowRuns : Obligations.WriteDataRowRuns := by
  intro s hon htag hlo hhi haddr hcount hwf
  have hp : s.pstate = PState.write s.pstate.step := congrArg (PState.mk · s.pstate.step) htag
  refine ⟨fun w hop => decode_powered s w _ hon hop ?selects, fun cmd => ?runs⟩
  case selects => rw [hp, poweredRow_write, writeRow_data _ _ hlo hhi]
  have hruns {u : State} (hu : storeDataByte (conc cmd) s = .next u) :=
    (exec_writeData_eq_next cmd s _).2 ⟨⟨hon, htag, hlo, hhi⟩, u, hu, rfl⟩
  have hi : s.byteCounter.toNat < Config.sectorSize := by simp only [Config.sectorSize]; omega
  -- The cases of `storeDataByte`: a poisoned address, `PER_BYTE`, a commit after the last byte, the buffer alone.
  obtain hpoison | hsector := haddr
  · refine ⟨s.storage, s.wbuf, hruns (storeDataByte_poison _ s hpoison), hwf, ?_⟩
    rw [if_pos hpoison]
    exact ⟨rfl, rfl⟩
  have hvalid : s.address ≠ 0xFFFF#16 := ne_poison_of_le_maxSector hsector
  have hsame := buffered_wbuf_same (conc cmd) s hi
  have hother := buffered_wbuf_other (conc cmd) s
  by_cases hc : s.writeCommit = .perByte
  · have hk : dataOffset s < Config.cardSize := dataOffset_lt_cardSize s hsector hi
    refine ⟨s.storage.write (dataOffset s) (conc cmd), s.wbuf, hruns (storeDataByte_perByte _ s hvalid hc hk),
      Memory.write_wf _ _ _ hk hwf, ?_⟩
    rw [if_neg hvalid, if_pos hc]
    exact ⟨rfl, Memory.read_write_same _ _ _ hwf, fun a ha => Memory.read_write_other _ _ a _ ha⟩
  have hstore := storeDataByte_buffered (conc cmd) s hvalid hc hi
  by_cases hlast : s.writeCommit = .afterData ∧ s.pstate.step.toNat = 131
  · obtain ⟨m, hcommit, hmwf, hinside, houtside⟩ :=
      commitBuffer_fills_sector (buffered (conc cmd) s) s.address hsector hwf
    rw [if_pos hlast, hcommit] at hstore
    refine ⟨m, (buffered (conc cmd) s).wbuf, hruns hstore, hmwf, ?_⟩
    rw [if_neg hvalid, if_neg hc, if_pos hlast]
    exact ⟨hsame, hother, hinside, houtside⟩
  · rw [if_neg hlast] at hstore
    refine ⟨s.storage, (buffered (conc cmd) s).wbuf, hruns hstore, hwf, ?_⟩
    rw [if_neg hvalid, if_neg hc, if_neg hlast]
    exact ⟨hsame, hother, rfl⟩

/-! ### The verdict and the end status -/

/-- A poisoned address is a bad sector whatever the checksum (R176). -/
theorem verdict_poison (c : Byte) : verdict poison c = stBadSector := if_pos rfl

/-- On any other address the checksum alone decides (R176). -/
theorem verdict_of_ne_poison (a : BitVec 16) (c : Byte) (h : a ≠ poison) :
    verdict a c = if c ≠ 0x00#8 then stBadChecksum else stGood := if_neg h

/-- Settles O20: the three cases of the verdict. -/
theorem verdictPrefersBadSector : Obligations.VerdictPrefersBadSector := by
  refine ⟨verdict_poison, fun a c ha hc => ?badChecksum, fun a ha => ?good⟩
  case badChecksum => rw [verdict_of_ne_poison a c ha, if_pos hc, stBadChecksum]
  case good => rw [verdict_of_ne_poison a _ ha, if_neg (not_not_intro rfl), stGood]

/-- `AT_END` commits the buffer of a valid sector (R181). -/
theorem commitAtEnd_of_atEnd (s : State) (h : s.writeCommit = .atEnd ∧ s.address ≠ poison) :
    commitAtEnd s = commitBuffer s (sectorBase s.address) := if_pos h

/-- Otherwise the end status stores nothing (R181). -/
theorem commitAtEnd_of_not_atEnd (s : State) (h : ¬(s.writeCommit = .atEnd ∧ s.address ≠ poison)) :
    commitAtEnd s = .next s := if_neg h

/-- Settles O15: the end status runs the commit of `AT_END` on a valid sector, or none, and answers the verdict. -/
theorem writeStatusRowRuns : Obligations.WriteStatusRowRuns := by
  intro s hon hp haddr hwf
  refine ⟨fun w hop => decode_powered s w _ hon hop (by rw [hp]; rfl), fun cmd => ?runs⟩
  have hruns {u : State} (hu : commitAtEnd s = .next u) :=
    (exec_writeStatus_eq_next cmd s _).2 ⟨⟨hon, hp⟩, u, hu, rfl⟩
  by_cases hcommits : s.writeCommit = .atEnd ∧ s.address ≠ 0xFFFF#16
  · have hsector : s.address.toNat ≤ 0x3FF := haddr.resolve_left hcommits.2
    obtain ⟨m, hcommit, hmwf, hinside, houtside⟩ := commitBuffer_fills_sector s s.address hsector hwf
    refine ⟨m, hruns ((commitAtEnd_of_atEnd s hcommits).trans hcommit), hmwf, ?_⟩
    rw [if_pos hcommits]
    exact ⟨hinside, houtside⟩
  · refine ⟨s.storage, hruns (commitAtEnd_of_not_atEnd s hcommits), hwf, ?_⟩
    rw [if_neg hcommits]

/-! ### The steps of one protocol state -/

/-- Settles O12: steps 0, 1, 133 and 134 of a write, each from what its row answers. -/
theorem writeTagRowsRun : Obligations.WriteTagRowsRun :=
  ⟨rowRuns_of_poweredRow (fun _ => rfl) fun cmd s hsel => (exec_writeId0_eq_next cmd s _).2 ⟨hsel, rfl⟩,
    rowRuns_of_poweredRow (fun _ => rfl) fun cmd s hsel => (exec_writeId1_eq_next cmd s _).2 ⟨hsel, rfl⟩,
    rowRuns_of_poweredRow (fun _ => rfl) fun cmd s hsel => (exec_writeAck0_eq_next cmd s _).2 ⟨hsel, rfl⟩,
    rowRuns_of_poweredRow (fun _ => rfl) fun cmd s hsel => (exec_writeAck1_eq_next cmd s _).2 ⟨hsel, rfl⟩⟩

/-- Settles O13: steps 2 and 3 of a write, which run `takeMsb` and `takeLsb`, and step 132. -/
theorem writeAddressAndChecksumRowsRun : Obligations.WriteAddressAndChecksumRowsRun :=
  ⟨rowRuns_of_poweredRow (fun _ => rfl) fun cmd s hsel => (exec_writeAddrMsb_eq_next cmd s _).2 ⟨hsel, rfl⟩,
    rowRuns_of_poweredRow (fun _ => rfl) fun cmd s hsel => (exec_writeAddrLsb_eq_next cmd s _).2 ⟨hsel, rfl⟩,
    rowRuns_of_poweredRow (fun _ => rfl) fun cmd s hsel => (exec_writeChecksum_eq_next cmd s _).2 ⟨hsel, rfl⟩⟩

end Sys2Proof.Machine

/-!
The identify sub-sequence (44_identify.md): its eight steps, each of which only moves on and answers a fixed byte.
-/

namespace Sys2Proof.Machine

/-- A row runs where its inversion lemma says that it answers in `p` alone, and with one state. -/
theorem rowRuns_of_exec_iff {p : PState} {row : Tri → Instr} {effect : Tri → State → State}
    (hrow : ∀ cmd, poweredRow p cmd = some (row cmd))
    (hexec : ∀ cmd s t, exec (row cmd) s = .next t ↔ (s.poweredOn = true ∧ s.pstate = p) ∧ t = effect cmd s) :
    RowRuns p row effect :=
  rowRuns_of_poweredRow hrow fun cmd s hsel => (hexec cmd s _).2 ⟨hsel, rfl⟩

/-- Settles O16: the table of `IDENT(s)` selects one row for each of its eight steps, and each row's inversion lemma names
its byte (`ID1`, `ID2`, `CACK1`, `CACK2` and the four bytes of `IDENT_PAYLOAD`) and the step it leaves. -/
theorem identifyRowsRun : Obligations.IdentifyRowsRun := by
  refine ⟨?step0, ?step1, ?step2, ?step3, ?step4, ?step5, ?step6, ?step7⟩
  case step0 => exact rowRuns_of_exec_iff (fun _ => rfl) exec_identStep0_eq_next
  case step1 => exact rowRuns_of_exec_iff (fun _ => rfl) exec_identStep1_eq_next
  case step2 => exact rowRuns_of_exec_iff (fun _ => rfl) exec_identStep2_eq_next
  case step3 => exact rowRuns_of_exec_iff (fun _ => rfl) exec_identStep3_eq_next
  case step4 => exact rowRuns_of_exec_iff (fun _ => rfl) exec_identStep4_eq_next
  case step5 => exact rowRuns_of_exec_iff (fun _ => rfl) exec_identStep5_eq_next
  case step6 => exact rowRuns_of_exec_iff (fun _ => rfl) exec_identStep6_eq_next
  case step7 => exact rowRuns_of_exec_iff (fun _ => rfl) exec_identStep7_eq_next

end Sys2Proof.Machine

/-!
One powered TRANSFER as a whole (40_power_and_transfer.md R103): the registers it leaves, the byte it answers and what it
does to the store, each as one function of the card and the input. `exec_eq_transferEffect` ties them to the meaning of
every row that the decoder can select, and the statements about steps and frames are proved about them.
-/

namespace Sys2Proof.Machine

/-! ### Where a TRANSFER moves -/

/-- The frame ends at this step: the last step of each sub-sequence, and `READ(7)` with a poisoned address (R148, R151,
R181, R207). -/
def frameEnds (p : PState) (address : BitVec 16) : Bool :=
  p == PState.read 137 || (p == PState.read 7 && address == poison) || p == PState.write 135 || p == PState.ident 7

/-- The protocol state a powered TRANSFER of `cmd` moves to (10_state.md R30). -/
def nextPState (cmd : Tri) (p : PState) (address : BitVec 16) : PState :=
  if p = PState.idle then
    if cmd = .byte frameStartByte then PState.awaitCmd else PState.idle
  else if p = PState.awaitCmd then
    if cmd = .byte cmdReadByte then PState.read 0
    else if cmd = .byte cmdWriteByte then PState.write 0
    else if cmd = .byte cmdIdentifyByte then PState.ident 0
    else PState.idle
  else if frameEnds p address then PState.idle
  else ⟨p.tag, p.step + 1⟩

/-! ### What a TRANSFER answers -/

/-- The byte answered in `READ(k)` (42_read_sector.md). -/
def readAnswer (k : BitVec 8) (s : State) : Byte :=
  if k = 0 then id1 else if k = 1 then id2
  else if k.toNat ≤ 3 then 0x00
  else if k = 4 then cack1 else if k = 5 then cack2
  else if k = 6 then addressMsb s.address
  else if k = 7 then (if s.address = poison then 0xFF else addressLsb s.address)
  else if k.toNat ≤ 135 then s.storage.read (dataOffset s)
  else if k = 136 then s.checksum
  else stGood

/-- The byte answered in `WRITE(k)` (43_write_sector.md). -/
def writeAnswer (k : BitVec 8) (s : State) : Byte :=
  if k = 0 then id1 else if k = 1 then id2
  else if k.toNat ≤ 132 then 0x00
  else if k = 133 then cack1 else if k = 134 then cack2
  else verdict s.address s.checksum

/-- The byte answered in `IDENT(k)` (44_identify.md). -/
def identAnswer (k : BitVec 8) : Byte :=
  if k = 0 then id1 else if k = 1 then id2
  else if k = 2 then cack1 else if k = 3 then cack2
  else if k = 4 then identPayload0 else if k = 5 then identPayload1 else if k = 6 then identPayload2
  else identPayload3

/-- The tri-state byte a powered TRANSFER answers: no input stands in it (R106). -/
def answerByte (s : State) : Tri :=
  if s.pstate = PState.idle then .z
  else if s.pstate = PState.awaitCmd then .byte s.flag
  else if s.pstate.tag = 0b010#3 then .byte (readAnswer s.pstate.step s)
  else if s.pstate.tag = 0b011#3 then .byte (writeAnswer s.pstate.step s)
  else .byte (identAnswer s.pstate.step)

/-! ### The registers a TRANSFER leaves -/

/-- A data byte moves: `READ(8..135)` and `WRITE(4..131)` (R149, R177). -/
def movesData (p : PState) : Bool := (p.tag == 0b010#3 && p.stepIn 8 135) || (p.tag == 0b011#3 && p.stepIn 4 131)

/-- The data byte that moves: the store's in a read, the host's in a write. -/
def movedByte (cmd : Tri) (s : State) : Byte := if s.pstate.tag = 0b010#3 then s.storage.read (dataOffset s) else conc cmd

/-- `address` after a powered TRANSFER: step 2 of a read or a write takes the MSB, step 3 the LSB (R142, R143). -/
def nextAddress (cmd : Tri) (s : State) : BitVec 16 :=
  if s.pstate = PState.read 2 ∨ s.pstate = PState.write 2 then addressOfMsb (conc cmd)
  else if s.pstate = PState.read 3 ∨ s.pstate = PState.write 3 then decodeAddress (withLsb s.address (conc cmd))
  else s.address

/-- `checksum` after a powered TRANSFER: the address bytes, each data byte and the host's checksum go in (10_state.md
R27). -/
def nextChecksum (cmd : Tri) (s : State) : Byte :=
  if s.pstate = PState.read 2 ∨ s.pstate = PState.write 2 then conc cmd
  else if s.pstate = PState.read 3 ∨ s.pstate = PState.write 3 ∨ s.pstate = PState.write 132 then
    s.checksum ^^^ conc cmd
  else if movesData s.pstate then s.checksum ^^^ movedByte cmd s
  else s.checksum

/-- `byte_counter` after a powered TRANSFER: cleared with the address, and counting the data bytes (10_state.md R28). -/
def nextCounter (s : State) : BitVec 8 :=
  if s.pstate = PState.read 3 ∨ s.pstate = PState.write 3 then 0
  else if movesData s.pstate then s.byteCounter + 1
  else s.byteCounter

/-! ### The whole effect -/

/-- What a powered TRANSFER does to the store and the write buffer: a data byte of a read is fetched, one of a write is
stored, and the end of a write may commit (R149, R177, R181). -/
def storeWork (cmd : Tri) (s : State) : Result :=
  if movesData s.pstate then
    if s.pstate.tag = 0b010#3 then memRead s (dataOffset s) fun _ => .next s else storeDataByte (conc cmd) s
  else if s.pstate = PState.write 135 then commitAtEnd s
  else .next s

/-- The card `s` after a powered TRANSFER of `cmd`, with the store and the buffer of `u`: `ack` is 0 exactly where it moves
to `IDLE` (R104). -/
def afterTransfer (cmd : Tri) (s u : State) : State :=
  { u with
    pstate := nextPState cmd s.pstate s.address
    address := nextAddress cmd s
    checksum := nextChecksum cmd s
    byteCounter := nextCounter s
    response := some (.transfer (nextPState cmd s.pstate s.address != PState.idle) (answerByte s)) }

/-- A powered TRANSFER in a legal protocol state. -/
def transferEffect (cmd : Tri) (s : State) : Result := andThen (storeWork cmd s) fun u => .next (afterTransfer cmd s u)

theorem afterTransfer_eq (cmd : Tri) (s u : State) {q : PState} {d : Tri}
    (hq : nextPState cmd s.pstate s.address = q) (hd : answerByte s = d) :
    afterTransfer cmd s u = { u with
      pstate := q, address := nextAddress cmd s, checksum := nextChecksum cmd s, byteCounter := nextCounter s,
      response := some (.transfer (q != PState.idle) d) } := by
  rw [afterTransfer, hq, hd]

/-! ### Each function, table by table -/

theorem nextPState_idle (cmd : Tri) (a : BitVec 16) :
    nextPState cmd PState.idle a = if cmd = .byte frameStartByte then PState.awaitCmd else PState.idle := rfl

theorem nextPState_awaitCmd (cmd : Tri) (a : BitVec 16) :
    nextPState cmd PState.awaitCmd a =
      if cmd = .byte cmdReadByte then PState.read 0
      else if cmd = .byte cmdWriteByte then PState.write 0
      else if cmd = .byte cmdIdentifyByte then PState.ident 0
      else PState.idle := rfl

theorem nextPState_read (cmd : Tri) (k : BitVec 8) (a : BitVec 16) :
    nextPState cmd (PState.read k) a = if frameEnds (PState.read k) a then PState.idle else PState.read (k + 1) := rfl

theorem nextPState_write (cmd : Tri) (k : BitVec 8) (a : BitVec 16) :
    nextPState cmd (PState.write k) a = if frameEnds (PState.write k) a then PState.idle else PState.write (k + 1) := rfl

theorem nextPState_ident (cmd : Tri) (k : BitVec 8) (a : BitVec 16) :
    nextPState cmd (PState.ident k) a = if frameEnds (PState.ident k) a then PState.idle else PState.ident (k + 1) := rfl

@[simp] theorem frameEnds_read (k : BitVec 8) (a : BitVec 16) :
    frameEnds (PState.read k) a = true ↔ k = 137 ∨ (k = 7 ∧ a = poison) := by
  simp [frameEnds]

@[simp] theorem frameEnds_write (k : BitVec 8) (a : BitVec 16) : frameEnds (PState.write k) a = true ↔ k = 135 := by
  simp [frameEnds]

@[simp] theorem frameEnds_ident (k : BitVec 8) (a : BitVec 16) : frameEnds (PState.ident k) a = true ↔ k = 7 := by
  simp [frameEnds]

@[simp] theorem movesData_read (k : BitVec 8) : movesData (PState.read k) = true ↔ 8 ≤ k.toNat ∧ k.toNat ≤ 135 := by
  simp [movesData]

@[simp] theorem movesData_write (k : BitVec 8) : movesData (PState.write k) = true ↔ 4 ≤ k.toNat ∧ k.toNat ≤ 131 := by
  simp [movesData]

/-- A step number above `n` is none of the numbers up to `n`. -/
theorem ne_of_toNat_lt {k : BitVec 8} {n : Nat} (h : n < k.toNat) (j : BitVec 8) (hj : j.toNat ≤ n) : k ≠ j := by
  rintro rfl
  omega

/-- In `READ(8..135)` the byte of the store is answered. -/
theorem readAnswer_data (k : BitVec 8) (s : State) (hlo : 8 ≤ k.toNat) (hhi : k.toNat ≤ 135) :
    readAnswer k s = s.storage.read (dataOffset s) := by
  have hne := ne_of_toNat_lt hlo
  simp only [readAnswer, if_pos hhi, if_neg (hne 0 (by decide)), if_neg (hne 1 (by decide)), if_neg (hne 4 (by decide)),
    if_neg (hne 5 (by decide)), if_neg (hne 6 (by decide)), if_neg (hne 7 (by decide)),
    if_neg (by omega : ¬k.toNat ≤ 3)]

/-- In `WRITE(4..131)` the answer is 0x00. -/
theorem writeAnswer_data (k : BitVec 8) (s : State) (hlo : 4 ≤ k.toNat) (hhi : k.toNat ≤ 131) :
    writeAnswer k s = 0x00 := by
  have hne := ne_of_toNat_lt hlo
  simp only [writeAnswer, if_neg (hne 0 (by decide)), if_neg (hne 1 (by decide)), if_pos (by omega : k.toNat ≤ 132)]

/-- A data step that is not one of a read is one of a write. -/
theorem write_of_movesData {p : PState} (h : movesData p = true) (hread : p.tag ≠ 0b010#3) : p.tag = 0b011#3 := by
  simp only [movesData, Bool.or_eq_true, Bool.and_eq_true, beq_iff_eq, hread, false_and, false_or] at h
  exact h.1

theorem eq_read_of_tag {p : PState} (h : p.tag = 0b010#3) : p = PState.read p.step := congrArg (PState.mk · p.step) h

theorem eq_write_of_tag {p : PState} (h : p.tag = 0b011#3) : p = PState.write p.step := congrArg (PState.mk · p.step) h

/-- A data step is none of the steps that write a register otherwise. -/
theorem ne_of_movesData {p : PState} (h : movesData p = true) :
    p ≠ PState.read 2#8 ∧ p ≠ PState.write 2#8 ∧ p ≠ PState.read 3#8 ∧ p ≠ PState.write 3#8 ∧ p ≠ PState.write 132#8 := by
  have hnot : ∀ q : PState, movesData q = false → p ≠ q := by
    rintro q hq rfl
    exact absurd h (by simp [hq])
  exact ⟨hnot _ rfl, hnot _ rfl, hnot _ rfl, hnot _ rfl, hnot _ rfl⟩

theorem nextAddress_data (cmd : Tri) (s : State) (h : movesData s.pstate = true) : nextAddress cmd s = s.address := by
  simp [nextAddress, ne_of_movesData h]

theorem nextChecksum_data (cmd : Tri) (s : State) (h : movesData s.pstate = true) :
    nextChecksum cmd s = s.checksum ^^^ movedByte cmd s := by
  simp [nextChecksum, ne_of_movesData h, h]

theorem nextCounter_data (s : State) (h : movesData s.pstate = true) : nextCounter s = s.byteCounter + 1 := by
  simp [nextCounter, ne_of_movesData h, h]

/-! ### The effect is the row's meaning -/

theorem andThen_memRead (s : State) (k : Nat) (f : Byte → Result) (g : State → Result) :
    andThen (memRead s k f) g = memRead s k fun b => andThen (f b) g := by
  unfold memRead
  split <;> rfl

/-- A store read hands on the byte that the store holds. -/
theorem memRead_congr (s : State) (k : Nat) (f g : Byte → Result) (h : f (s.storage.read k) = g (s.storage.read k)) :
    memRead s k f = memRead s k g := by
  unfold memRead
  rw [h]

/-- A guarded rule that is selected in `p` is the effect of a TRANSFER there, where what it guards is. -/
theorem whenRow_eq_transferEffect {selected : Prop} [Decidable selected] {r : Result} {s : State} {p : PState} {cmd : Tri}
    (hsel : selected) (hp : s.pstate = p) (hr : r = transferEffect cmd (s.setPstate p)) :
    whenRow selected r = transferEffect cmd s := by
  subst hp
  rw [whenRow_of selected r hsel, hr]
  rfl

/-- READ_ECHO_LSB, with its two ends (R148). -/
theorem exec_readEchoLsb_eq_transferEffect (cmd : Tri) (s : State) (hon : s.poweredOn = true)
    (hp : s.pstate = PState.read 7) : exec (.readEchoLsb cmd) s = transferEffect cmd s := by
  refine whenRow_eq_transferEffect ⟨hon, hp⟩ hp ?_
  change _ = Host.Outcome.next (afterTransfer cmd (s.setPstate (PState.read 7)) (s.setPstate (PState.read 7)))
  by_cases ha : s.address = poison
  · have hnext : nextPState cmd (PState.read 7) s.address = PState.idle :=
      if_pos ((frameEnds_read 7 _).2 (.inr ⟨rfl, ha⟩))
    have hanswer : answerByte (s.setPstate (PState.read 7)) = .byte 0xFF := congrArg Tri.byte (if_pos ha)
    rw [if_pos ha, afterTransfer_eq _ _ _ hnext hanswer]
    rfl
  · have hnext : nextPState cmd (PState.read 7) s.address = PState.read 8 := by
      rw [nextPState_read, if_neg (by simp [ha])]
      rfl
    have hanswer : answerByte (s.setPstate (PState.read 7)) = .byte (addressLsb s.address) :=
      congrArg Tri.byte (if_neg ha)
    rw [if_neg ha, afterTransfer_eq _ _ _ hnext hanswer]
    rfl

/-- READ_DATA (R149). -/
theorem exec_readData_eq_transferEffect (k : BitVec 8) (cmd : Tri) (s : State) (hon : s.poweredOn = true)
    (hp : s.pstate = PState.read k) (hlo : 8 ≤ k.toNat) (hhi : k.toNat ≤ 135) :
    exec (.readData cmd) s = transferEffect cmd s := by
  have hmoves : movesData s.pstate = true := by rw [hp]; exact (movesData_read k).2 ⟨hlo, hhi⟩
  have hgoes : ¬frameEnds (PState.read k) s.address = true := by rw [frameEnds_read]; bv_omega
  have hnext : nextPState cmd s.pstate s.address = PState.read (s.pstate.step + 1) := by
    rw [hp, nextPState_read, if_neg hgoes]
  have hanswer : answerByte s = .byte (s.storage.read (dataOffset s)) := by
    rw [← readAnswer_data k s hlo hhi, answerByte, hp]
    rfl
  calc exec (.readData cmd) s
    _ = memRead s (dataOffset s) _ := whenRow_of _ _ ⟨hon, by simp [hp], by simpa [hp], by simpa [hp]⟩
    _ = memRead s (dataOffset s) fun _ => .next (afterTransfer cmd s s) := by
      refine memRead_congr _ _ _ _ ?_
      rw [afterTransfer_eq cmd s s hnext hanswer, nextAddress_data cmd s hmoves, nextChecksum_data cmd s hmoves,
        nextCounter_data s hmoves, movedByte, if_pos (by rw [hp])]
      rfl
    _ = transferEffect cmd s := by
      rw [transferEffect, storeWork, if_pos hmoves, if_pos (by rw [hp]), andThen_memRead]
      rfl

/-- WRITE_DATA (R177). -/
theorem exec_writeData_eq_transferEffect (k : BitVec 8) (cmd : Tri) (s : State) (hon : s.poweredOn = true)
    (hp : s.pstate = PState.write k) (hlo : 4 ≤ k.toNat) (hhi : k.toNat ≤ 131) :
    exec (.writeData cmd) s = transferEffect cmd s := by
  have hmoves : movesData s.pstate = true := by rw [hp]; exact (movesData_write k).2 ⟨hlo, hhi⟩
  have hgoes : ¬frameEnds (PState.write k) s.address = true := by rw [frameEnds_write]; bv_omega
  have hnext : nextPState cmd s.pstate s.address = PState.write (s.pstate.step + 1) := by
    rw [hp, nextPState_write, if_neg hgoes]
  have hwrites : s.pstate.tag ≠ 0b010#3 := by simp [hp]
  have hanswer : answerByte s = .byte 0x00 := by
    rw [← writeAnswer_data k s hlo hhi, answerByte, hp]
    rfl
  calc exec (.writeData cmd) s
    _ = andThen (storeDataByte (conc cmd) s) _ := whenRow_of _ _ ⟨hon, by simp [hp], by simpa [hp], by simpa [hp]⟩
    _ = transferEffect cmd s := by
      rw [transferEffect, storeWork, if_pos hmoves, if_neg hwrites]
      cases hstore : storeDataByte (conc cmd) s with
      | next u =>
        obtain ⟨m, w, rfl⟩ := storeDataByte_eq_next _ _ _ hstore
        rw [andThen_next, andThen_next, afterTransfer_eq cmd s _ hnext hanswer, nextAddress_data cmd s hmoves,
          nextChecksum_data cmd s hmoves, nextCounter_data s hmoves, movedByte, if_neg hwrites]
        rfl
      | fault e => rfl
      | refused e => rfl

/-- WRITE_STATUS (R181). -/
theorem exec_writeStatus_eq_transferEffect (cmd : Tri) (s : State) (hon : s.poweredOn = true)
    (hp : s.pstate = PState.write 135) : exec (.writeStatus cmd) s = transferEffect cmd s := by
  have hwork : storeWork cmd s = commitAtEnd s := by rw [storeWork, hp]; rfl
  calc exec (.writeStatus cmd) s
    _ = andThen (commitAtEnd s) _ := whenRow_of _ _ ⟨hon, hp⟩
    _ = transferEffect cmd s := by
      rw [transferEffect, hwork]
      cases hcommit : commitAtEnd s with
      | next u =>
        obtain ⟨m, rfl⟩ : ∃ m, u = s.setStorage m := by
          obtain ⟨-, hu⟩ | ⟨-, -, -, hu⟩ := commitAtEnd_eq_next s u hcommit
          · exact ⟨s.storage, hu⟩
          · exact ⟨_, hu⟩
        rw [andThen_next, andThen_next, afterTransfer, answerByte, nextAddress, nextChecksum, nextCounter, hp]
        rfl
      | fault e => rfl
      | refused e => rfl

/-- Every row of `READ(k)` means the effect of a TRANSFER there. -/
theorem exec_readRow_eq_transferEffect (k : BitVec 8) (cmd : Tri) (i : Instr) (s : State) (hon : s.poweredOn = true)
    (hp : s.pstate = PState.read k) (hrow : readRow k cmd = some i) : exec i s = transferEffect cmd s := by
  obtain ⟨rfl, rfl⟩ | ⟨rfl, rfl⟩ | ⟨rfl, rfl⟩ | ⟨rfl, rfl⟩ | ⟨rfl, rfl⟩ | ⟨rfl, rfl⟩ | ⟨rfl, rfl⟩ | ⟨rfl, rfl⟩ |
    ⟨⟨hlo, hhi⟩, rfl⟩ | ⟨rfl, rfl⟩ | ⟨rfl, rfl⟩ := readRow_eq_some k cmd i hrow
  case inr.inr.inr.inr.inr.inr.inr.inl => exact exec_readEchoLsb_eq_transferEffect cmd s hon hp
  case inr.inr.inr.inr.inr.inr.inr.inr.inl => exact exec_readData_eq_transferEffect k cmd s hon hp hlo hhi
  all_goals exact whenRow_eq_transferEffect ⟨hon, hp⟩ hp rfl

/-- Every row of `WRITE(k)` means the effect of a TRANSFER there. -/
theorem exec_writeRow_eq_transferEffect (k : BitVec 8) (cmd : Tri) (i : Instr) (s : State) (hon : s.poweredOn = true)
    (hp : s.pstate = PState.write k) (hrow : writeRow k cmd = some i) : exec i s = transferEffect cmd s := by
  obtain ⟨rfl, rfl⟩ | ⟨rfl, rfl⟩ | ⟨rfl, rfl⟩ | ⟨rfl, rfl⟩ | ⟨⟨hlo, hhi⟩, rfl⟩ | ⟨rfl, rfl⟩ | ⟨rfl, rfl⟩ | ⟨rfl, rfl⟩ |
    ⟨rfl, rfl⟩ := writeRow_eq_some k cmd i hrow
  case inr.inr.inr.inr.inl => exact exec_writeData_eq_transferEffect k cmd s hon hp hlo hhi
  case inr.inr.inr.inr.inr.inr.inr.inr => exact exec_writeStatus_eq_transferEffect cmd s hon hp
  all_goals exact whenRow_eq_transferEffect ⟨hon, hp⟩ hp rfl

/-- Every row of `IDENT(k)` means the effect of a TRANSFER there. -/
theorem exec_identRow_eq_transferEffect (k : BitVec 8) (cmd : Tri) (i : Instr) (s : State) (hon : s.poweredOn = true)
    (hp : s.pstate = PState.ident k) (hrow : identRow k cmd = some i) : exec i s = transferEffect cmd s := by
  obtain ⟨rfl, rfl⟩ | ⟨rfl, rfl⟩ | ⟨rfl, rfl⟩ | ⟨rfl, rfl⟩ | ⟨rfl, rfl⟩ | ⟨rfl, rfl⟩ | ⟨rfl, rfl⟩ | ⟨rfl, rfl⟩ :=
    identRow_eq_some k cmd i hrow
  all_goals exact whenRow_eq_transferEffect ⟨hon, hp⟩ hp rfl

/-- The row of `IDLE` means the effect of a TRANSFER there. -/
theorem exec_idleRow_eq_transferEffect (cmd : Tri) (s : State) (hon : s.poweredOn = true) (hp : s.pstate = PState.idle) :
    exec (idleRow cmd) s = transferEffect cmd s := by
  by_cases hstart : cmd = .byte frameStartByte
  · subst hstart
    exact whenRow_eq_transferEffect ⟨hon, hp⟩ hp rfl
  · rw [idleRow_of_ne cmd hstart]
    refine whenRow_eq_transferEffect ⟨hon, hp, hstart⟩ hp ?_
    have hkeep : s = s.setPstate PState.idle := by rw [← hp]; rfl
    have hnext : nextPState cmd PState.idle s.address = PState.idle := if_neg hstart
    have hanswer : answerByte (s.setPstate PState.idle) = .z := rfl
    calc respond false .z s
      _ = respond false .z (s.setPstate PState.idle) := congrArg (respond false .z) hkeep
      _ = .next (afterTransfer cmd (s.setPstate PState.idle) (s.setPstate PState.idle)) := by
        rw [afterTransfer_eq _ _ _ hnext hanswer]
        rfl

/-- The row of `AWAIT_CMD` means the effect of a TRANSFER there. -/
theorem exec_awaitRow_eq_transferEffect (cmd : Tri) (s : State) (hon : s.poweredOn = true)
    (hp : s.pstate = PState.awaitCmd) : exec (awaitRow cmd) s = transferEffect cmd s := by
  by_cases hread : cmd = .byte cmdReadByte
  · subst hread
    exact whenRow_eq_transferEffect ⟨hon, hp⟩ hp rfl
  by_cases hwrite : cmd = .byte cmdWriteByte
  · subst hwrite
    exact whenRow_eq_transferEffect ⟨hon, hp⟩ hp rfl
  by_cases hident : cmd = .byte cmdIdentifyByte
  · subst hident
    exact whenRow_eq_transferEffect ⟨hon, hp⟩ hp rfl
  rw [awaitRow_of_ne cmd hread hwrite hident]
  refine whenRow_eq_transferEffect ⟨hon, hp, hread, hwrite, hident⟩ hp ?_
  change _ = Host.Outcome.next (afterTransfer cmd (s.setPstate PState.awaitCmd) (s.setPstate PState.awaitCmd))
  have hnext : nextPState cmd PState.awaitCmd s.address = PState.idle :=
    (if_neg hread).trans ((if_neg hwrite).trans (if_neg hident))
  have hanswer : answerByte (s.setPstate PState.awaitCmd) = .byte s.flag := rfl
  rw [afterTransfer_eq _ _ _ hnext hanswer]
  rfl

/-- On a powered card the row that the decoder selects means the effect of a TRANSFER. -/
theorem exec_eq_transferEffect (cmd : Tri) (i : Instr) (s : State) (hon : s.poweredOn = true)
    (hrow : poweredRow s.pstate cmd = some i) : exec i s = transferEffect cmd s := by
  obtain ⟨hp, rfl⟩ | ⟨hp, rfl⟩ | ⟨hp, hread⟩ | ⟨hp, hwrite⟩ | ⟨hp, hident⟩ := poweredRow_eq_some _ cmd i hrow
  · exact exec_idleRow_eq_transferEffect cmd s hon hp
  · exact exec_awaitRow_eq_transferEffect cmd s hon hp
  · exact exec_readRow_eq_transferEffect _ cmd i s hon hp hread
  · exact exec_writeRow_eq_transferEffect _ cmd i s hon hp hwrite
  · exact exec_identRow_eq_transferEffect _ cmd i s hon hp hident

end Sys2Proof.Machine

/-!
The decoder and the encoder against each other (30_encoding.md): the word of a row decodes to the row, and a decoded row's
word is the word it was read from, but for the ignored bits of an absent byte.
-/

namespace Sys2Proof.Machine

/-! ### The word of a row -/

/-- The word of a tri-state byte is decoded as a TRANSFER of that byte (30_encoding.md R91). -/
theorem decode_xferWord (c : Context) (cmd : Tri) : decode c (xferWord cmd) = transferRow c cmd := by
  rw [decode_transfer c _ (opField_xferWord cmd), triField_xferWord]

/-- The word of a TRANSFER row decodes to it where the powered card selects it (40_power_and_transfer.md R103). -/
theorem decode_xferWord_of_poweredRow (c : Context) (cmd : Tri) (i : Instr) (hon : c.poweredOn = true)
    (hrow : poweredRow c.pstate cmd = some i) : decode c (xferWord cmd) = .ok i := by
  rw [decode_xferWord, transferRow, if_pos hon, hrow]

/-- The same for a row of one protocol state. -/
theorem decode_xferWord_in {c : Context} {p : PState} {cmd : Tri} {i : Instr}
    (hsel : (c.poweredOn && c.pstate == p) = true) (hrow : poweredRow p cmd = some i) :
    decode c (xferWord cmd) = .ok i := by
  obtain ⟨hon, hp⟩ := Bool.and_eq_true_iff.1 hsel
  exact decode_xferWord_of_poweredRow c cmd i hon (by rwa [eq_of_beq hp])

/-- A data row of a sub-sequence, which runs in a range of its steps. -/
theorem decode_xferWord_in_range {c : Context} {tag : BitVec 3} {lo hi : Nat} {cmd : Tri} {i : Instr}
    (hsel : (c.poweredOn && c.pstate.tag == tag && c.pstate.stepIn lo hi) = true)
    (hrow : ∀ k : BitVec 8, lo ≤ k.toNat → k.toNat ≤ hi → poweredRow ⟨tag, k⟩ cmd = some i) :
    decode c (xferWord cmd) = .ok i := by
  simp only [Bool.and_eq_true, beq_iff_eq, PState.stepIn_iff] at hsel
  obtain ⟨⟨hon, rfl⟩, hlo, hhi⟩ := hsel
  exact decode_xferWord_of_poweredRow c cmd i hon (hrow c.pstate.step hlo hhi)

/-- Settles O24: a TRANSFER row's word is that of its operand, and the table of the row's protocol state selects the row. -/
theorem decodeOfEncode : Obligations.DecodeOfEncode := by
  intro c i hwf hsel
  cases i with
  | powerOn => exact decode_powerOnWord c
  | powerOff => exact decode_powerOffWord c
  | reservedOp11 w => exact decode_reserved c w hwf
  | xferUnpowered cmd =>
    have hoff : c.poweredOn = false := by simpa [selectedIn] using hsel
    exact (decode_xferWord c cmd).trans (transferRow_unpowered c cmd hoff)
  | idleIgnore cmd =>
    have hne : cmd ≠ .byte frameStartByte := by simpa [WellFormed] using hwf
    exact decode_xferWord_in hsel (by rw [poweredRow_idle, idleRow_of_ne cmd hne])
  | cmdReject cmd =>
    have hne : (cmd ≠ .byte cmdReadByte ∧ cmd ≠ .byte cmdWriteByte) ∧ cmd ≠ .byte cmdIdentifyByte := by
      simpa [WellFormed] using hwf
    obtain ⟨⟨hread, hwrite⟩, hident⟩ := hne
    exact decode_xferWord_in hsel (by rw [poweredRow_awaitCmd, awaitRow_of_ne cmd hread hwrite hident])
  | readData cmd => exact decode_xferWord_in_range hsel fun k => readRow_data k cmd
  | writeData cmd => exact decode_xferWord_in_range hsel fun k => writeRow_data k cmd
  | _ => exact decode_xferWord_in hsel rfl

/-! ### The row of a word -/

/-- The row runs in the context, admits its operand, and its word is that of `cmd`. -/
def RowOf (c : Context) (cmd : Tri) (i : Instr) : Prop :=
  selectedIn c i = true ∧ WellFormed i = true ∧ encode i = xferWord cmd

theorem rowOf_idleRow (c : Context) (cmd : Tri) (hon : c.poweredOn = true) (hp : c.pstate = PState.idle) :
    RowOf c cmd (idleRow cmd) := by
  unfold idleRow
  split_ifs with hstart
  · exact ⟨by simp [selectedIn, hon, hp], rfl, by rw [hstart]; rfl⟩
  · exact ⟨by simp [selectedIn, hon, hp], by simpa [WellFormed] using hstart, rfl⟩

theorem rowOf_awaitRow (c : Context) (cmd : Tri) (hon : c.poweredOn = true) (hp : c.pstate = PState.awaitCmd) :
    RowOf c cmd (awaitRow cmd) := by
  unfold awaitRow
  split_ifs with hread hwrite hident
  · exact ⟨by simp [selectedIn, hon, hp], rfl, by rw [hread]; rfl⟩
  · exact ⟨by simp [selectedIn, hon, hp], rfl, by rw [hwrite]; rfl⟩
  · exact ⟨by simp [selectedIn, hon, hp], rfl, by rw [hident]; rfl⟩
  · exact ⟨by simp [selectedIn, hon, hp], by simp [WellFormed, hread, hwrite, hident], rfl⟩

theorem rowOf_readRow (c : Context) (k : BitVec 8) (cmd : Tri) (i : Instr) (hon : c.poweredOn = true)
    (hp : c.pstate = PState.read k) (hrow : readRow k cmd = some i) : RowOf c cmd i := by
  obtain ⟨rfl, rfl⟩ | ⟨rfl, rfl⟩ | ⟨rfl, rfl⟩ | ⟨rfl, rfl⟩ | ⟨rfl, rfl⟩ | ⟨rfl, rfl⟩ | ⟨rfl, rfl⟩ | ⟨rfl, rfl⟩ |
    ⟨hrange, rfl⟩ | ⟨rfl, rfl⟩ | ⟨rfl, rfl⟩ := readRow_eq_some k cmd i hrow
  case inr.inr.inr.inr.inr.inr.inr.inr.inl => exact ⟨by simp [selectedIn, hon, hp, hrange], rfl, rfl⟩
  all_goals exact ⟨by simp [selectedIn, hon, hp], rfl, rfl⟩

theorem rowOf_writeRow (c : Context) (k : BitVec 8) (cmd : Tri) (i : Instr) (hon : c.poweredOn = true)
    (hp : c.pstate = PState.write k) (hrow : writeRow k cmd = some i) : RowOf c cmd i := by
  obtain ⟨rfl, rfl⟩ | ⟨rfl, rfl⟩ | ⟨rfl, rfl⟩ | ⟨rfl, rfl⟩ | ⟨hrange, rfl⟩ | ⟨rfl, rfl⟩ | ⟨rfl, rfl⟩ | ⟨rfl, rfl⟩ |
    ⟨rfl, rfl⟩ := writeRow_eq_some k cmd i hrow
  case inr.inr.inr.inr.inl => exact ⟨by simp [selectedIn, hon, hp, hrange], rfl, rfl⟩
  all_goals exact ⟨by simp [selectedIn, hon, hp], rfl, rfl⟩

theorem rowOf_identRow (c : Context) (k : BitVec 8) (cmd : Tri) (i : Instr) (hon : c.poweredOn = true)
    (hp : c.pstate = PState.ident k) (hrow : identRow k cmd = some i) : RowOf c cmd i := by
  obtain ⟨rfl, rfl⟩ | ⟨rfl, rfl⟩ | ⟨rfl, rfl⟩ | ⟨rfl, rfl⟩ | ⟨rfl, rfl⟩ | ⟨rfl, rfl⟩ | ⟨rfl, rfl⟩ | ⟨rfl, rfl⟩ :=
    identRow_eq_some k cmd i hrow
  all_goals exact ⟨by simp [selectedIn, hon, hp], rfl, rfl⟩

/-- The row that a powered card selects for an input is a row of it. -/
theorem rowOf_poweredRow (c : Context) (cmd : Tri) (i : Instr) (hon : c.poweredOn = true)
    (hrow : poweredRow c.pstate cmd = some i) : RowOf c cmd i := by
  obtain ⟨hp, rfl⟩ | ⟨hp, rfl⟩ | ⟨hp, hread⟩ | ⟨hp, hwrite⟩ | ⟨hp, hident⟩ := poweredRow_eq_some _ cmd i hrow
  · exact rowOf_idleRow c cmd hon hp
  · exact rowOf_awaitRow c cmd hon hp
  · exact rowOf_readRow c _ cmd i hon hp hread
  · exact rowOf_writeRow c _ cmd i hon hp hwrite
  · exact rowOf_identRow c _ cmd i hon hp hident

/-- The row of a TRANSFER is a row of its input, on a powered and on an unpowered card. -/
theorem rowOf_transferRow (c : Context) (cmd : Tri) (i : Instr) (h : transferRow c cmd = .ok i) : RowOf c cmd i := by
  cases hpow : c.poweredOn with
  | false =>
    rw [transferRow_unpowered c cmd hpow] at h
    obtain rfl := Except.ok.inj h
    exact ⟨by simp [selectedIn, hpow], rfl, rfl⟩
  | true =>
    rw [transferRow, if_pos hpow] at h
    cases hrow : poweredRow c.pstate cmd with
    | none => rw [hrow] at h; contradiction
    | some j =>
      rw [hrow] at h
      obtain rfl := Except.ok.inj h
      exact rowOf_poweredRow c cmd j hpow hrow

/-- Bits 10:8 of a word are 0 exactly where it is a TRANSFER of an absent byte (30_encoding.md R71, R72). -/
theorem extractLsb'_high_eq_zero_iff (w : OpWord) :
    w.extractLsb' 8 3 = 0b000#3 ↔ opField w = 0b00#2 ∧ w.getLsbD 8 = false := by
  have hparts : ∀ (op : BitVec 2) (v : BitVec 1), op ++ v = 0b000#3 ↔ op = 0b00#2 ∧ (v == 1#1) = false := by decide
  have hsplit : w.extractLsb' 8 (2 + 1) = w.extractLsb' 9 2 ++ w.extractLsb' 8 1 :=
    (BitVec.extractLsb'_append_extractLsb'_eq_extractLsb' rfl).symm
  rw [BitVec.getLsbD_eq_extractLsb', opField, ← hparts, ← hsplit]

/-- The word of a TRANSFER word's byte is the word, with the ignored bits of an absent byte cleared (R72). -/
theorem xferWord_triField (w : OpWord) (hop : opField w = 0b00#2) :
    xferWord (triField w) = if w.extractLsb' 8 3 = 0b000#3 then 0x000#11 else w := by
  rw [if_congr (extractLsb'_high_eq_zero_iff w) rfl rfl]
  cases hv : w.getLsbD 8 with
  | false =>
    rw [if_pos ⟨hop, rfl⟩, triField, hv]
    rfl
  | true =>
    have hbyte : triField w = .byte (w.extractLsb' 0 8) := if_pos hv
    rw [if_neg (by simp), hbyte, ← eq_xferWord_of_triField w _ hop hbyte]

/-- Settles O25: by the kinds of words; only a TRANSFER word has ignored bits. -/
theorem decodedRowIsSelected : Obligations.DecodedRowIsSelected := by
  intro c w i hdec
  cases hres : isReservedWord w with
  | true =>
    obtain rfl : .reservedOp11 w = i := Except.ok.inj ((decode_reserved c w hres).symm.trans hdec)
    have hhigh : ¬w.extractLsb' 8 3 = 0b000#3 := fun h => by
      simp [isReservedWord, ((extractLsb'_high_eq_zero_iff w).1 h).1] at hres
    exact ⟨rfl, hres, (if_neg hhigh).symm⟩
  | false =>
    obtain hop | rfl | rfl := opField_cases_of_not_reserved w hres
    · rw [decode_transfer c w hop] at hdec
      obtain ⟨hsel, hwf, henc⟩ := rowOf_transferRow c _ i hdec
      exact ⟨hsel, hwf, henc.trans (xferWord_triField w hop)⟩
    · obtain rfl := Except.ok.inj ((decode_powerOnWord c).symm.trans hdec)
      exact ⟨rfl, rfl, rfl⟩
    · obtain rfl := Except.ok.inj ((decode_powerOffWord c).symm.trans hdec)
      exact ⟨rfl, rfl, rfl⟩

/-- Settles O23: the words of R91 and R88, each through the table of the protocol state it is read in. -/
theorem wordsDecodeToTheirRows : Obligations.WordsDecodeToTheirRows := by
  refine ⟨decode_powerOnWord _, decode_powerOffWord _, decode_reserved _ _ (by decide), decode_xferWord _ (.byte 0x81#8),
    ?frameStart, ?cmdRead, ?readId0, ?writeData, ?identStep7⟩
  case frameStart => exact decode_xferWord_of_poweredRow _ (.byte 0x81#8) _ rfl rfl
  case cmdRead => exact decode_xferWord_of_poweredRow _ (.byte 0x52#8) _ rfl rfl
  case readId0 => exact decode_xferWord_of_poweredRow _ (.byte 0x81#8) _ rfl rfl
  case writeData => exact (decode_transfer _ _ (opField_absent 0xAA#8)).trans rfl
  case identStep7 => exact decode_xferWord_of_poweredRow _ (.byte 0xFF#8) _ rfl rfl

end Sys2Proof.Machine

/-!
The legal protocol states (10_state.md R23, R24), and what a step can do (10_state.md R33): one inversion for every step that
answers, and from it what no step of any kind changes.
-/

namespace Sys2Proof.Machine

/-! ### The legal protocol states -/

/-- The 284 legal protocol states, by their tables (10_state.md R23). -/
theorem legal_iff (p : PState) :
    p.legal = true ↔ p = PState.idle ∨ p = PState.awaitCmd ∨ (∃ k : BitVec 8, k.toNat ≤ 137 ∧ p = PState.read k) ∨
      (∃ k : BitVec 8, k.toNat ≤ 135 ∧ p = PState.write k) ∨ ∃ k : BitVec 8, k.toNat ≤ 7 ∧ p = PState.ident k := by
  have htable : ∀ (tag : BitVec 3) (n : Nat),
      (p.tag = tag ∧ p.step.toNat ≤ n) ↔ ∃ k : BitVec 8, k.toNat ≤ n ∧ p = ⟨tag, k⟩ := fun tag n =>
    ⟨fun ⟨htag, hstep⟩ => ⟨p.step, hstep, by rw [← htag]⟩, fun ⟨k, hk, hp⟩ => by rw [hp]; exact ⟨rfl, hk⟩⟩
  simp only [PState.legal, Bool.or_eq_true, Bool.and_eq_true, beq_iff_eq, PState.stepIn_iff, Nat.zero_le, true_and, htable,
    or_assoc]

/-- Unpacking the packed encoding gives the protocol state again (R24). -/
theorem ofBits_bits (p : PState) : PState.ofBits p.bits = p := by
  have htag : p.bits.extractLsb' 8 3 = p.tag := BitVec.extractLsb'_append_eq_left
  have hstep : p.bits.extractLsb' 0 8 = p.step := BitVec.extractLsb'_append_eq_right
  rw [PState.ofBits, htag, hstep]

/-- Packing the unpacked encoding gives the word again (R24). -/
theorem bits_ofBits (w : BitVec 11) : (PState.ofBits w).bits = w :=
  @BitVec.extractLsb'_append_extractLsb' 3 8 w

/-- Two protocol states with one encoding are one (R24). -/
theorem bits_inj {p q : PState} : p.bits = q.bits ↔ p = q :=
  ⟨fun h => by rw [← ofBits_bits p, h, ofBits_bits], congrArg PState.bits⟩

/-- The encodings of a table: its tag times 256, plus the step (R24). -/
theorem bits_mk_ofNat (tag : BitVec 3) (k : Nat) (hk : k < 256) :
    PState.bits ⟨tag, BitVec.ofNat 8 k⟩ = BitVec.ofNat 11 (tag.toNat * 256 + k) := by
  have htag : tag.toNat < 8 := tag.isLt
  have hor : tag.toNat <<< 8 ||| k = tag.toNat <<< 8 + k := (Nat.shiftLeft_add_eq_or_of_lt hk _).symm
  apply BitVec.eq_of_toNat_eq
  rw [PState.bits, BitVec.toNat_append tag (BitVec.ofNat 8 k), BitVec.toNat_ofNat, Nat.mod_eq_of_lt hk, hor,
    Nat.shiftLeft_eq, BitVec.toNat_ofNat]
  omega

/-- The steps up to `n` of a table, by their encodings. -/
theorem exists_step_iff_bits (p : PState) (tag : BitVec 3) (n base : Nat) (hn : n < 256) (hbase : tag.toNat * 256 = base) :
    (∃ k : BitVec 8, k.toNat ≤ n ∧ p = ⟨tag, k⟩) ↔ ∃ k : Nat, k ≤ n ∧ p.bits = BitVec.ofNat 11 (base + k) := by
  subst hbase
  constructor
  · rintro ⟨k, hk, rfl⟩
    exact ⟨k.toNat, hk, by rw [← bits_mk_ofNat tag _ k.isLt, BitVec.ofNat_toNat, BitVec.setWidth_eq]⟩
  · rintro ⟨k, hk, hp⟩
    refine ⟨BitVec.ofNat 8 k, ?_, bits_inj.1 (hp.trans (bits_mk_ofNat tag k (by omega)).symm)⟩
    rw [BitVec.toNat_ofNat]
    omega

/-- Settles O22: the two packings are inverse, and each table of R23 is a range of encodings. -/
theorem protocolStateEncoding : Obligations.ProtocolStateEncoding := by
  refine ⟨bits_ofBits, ofBits_bits, rfl, rfl, fun _ => rfl, fun _ => rfl, fun _ => rfl, fun p => ?legal⟩
  case legal =>
    have hidle : p = PState.idle ↔ p.bits = 0x000#11 := bits_inj.symm
    have hawait : p = PState.awaitCmd ↔ p.bits = 0x100#11 := bits_inj.symm
    rw [legal_iff, hidle, hawait, exists_step_iff_bits p 0b010#3 137 0x200 (by decide) rfl,
      exists_step_iff_bits p 0b011#3 135 0x300 (by decide) rfl, exists_step_iff_bits p 0b100#3 7 0x400 (by decide) rfl]

/-- Settles O19: `ABSENT_SUBST` is 0xFF. -/
theorem concSubstitutesForAbsent : Obligations.ConcSubstitutesForAbsent := ⟨rfl, fun _ => rfl⟩

/-! ### The rows of a legal protocol state -/

theorem exists_readRow (k : BitVec 8) (cmd : Tri) (hk : k.toNat ≤ 137) : ∃ i, readRow k cmd = some i := by
  have hcases : k = 0 ∨ k = 1 ∨ k = 2 ∨ k = 3 ∨ k = 4 ∨ k = 5 ∨ k = 6 ∨ k = 7 ∨ k = 136 ∨ k = 137 ∨
      (8 ≤ k.toNat ∧ k.toNat ≤ 135) := by bv_omega
  obtain rfl | rfl | rfl | rfl | rfl | rfl | rfl | rfl | rfl | rfl | ⟨hlo, hhi⟩ := hcases
  case inr.inr.inr.inr.inr.inr.inr.inr.inr.inr => exact ⟨_, readRow_data k cmd hlo hhi⟩
  all_goals exact ⟨_, rfl⟩

theorem exists_writeRow (k : BitVec 8) (cmd : Tri) (hk : k.toNat ≤ 135) : ∃ i, writeRow k cmd = some i := by
  have hcases : k = 0 ∨ k = 1 ∨ k = 2 ∨ k = 3 ∨ k = 132 ∨ k = 133 ∨ k = 134 ∨ k = 135 ∨
      (4 ≤ k.toNat ∧ k.toNat ≤ 131) := by bv_omega
  obtain rfl | rfl | rfl | rfl | rfl | rfl | rfl | rfl | ⟨hlo, hhi⟩ := hcases
  case inr.inr.inr.inr.inr.inr.inr.inr => exact ⟨_, writeRow_data k cmd hlo hhi⟩
  all_goals exact ⟨_, rfl⟩

theorem exists_identRow (k : BitVec 8) (cmd : Tri) (hk : k.toNat ≤ 7) : ∃ i, identRow k cmd = some i := by
  have hcases : k = 0 ∨ k = 1 ∨ k = 2 ∨ k = 3 ∨ k = 4 ∨ k = 5 ∨ k = 6 ∨ k = 7 := by bv_omega
  obtain rfl | rfl | rfl | rfl | rfl | rfl | rfl | rfl := hcases
  all_goals exact ⟨_, rfl⟩

theorem le_of_readRow (k : BitVec 8) (cmd : Tri) (i : Instr) (h : readRow k cmd = some i) : k.toNat ≤ 137 := by
  obtain ⟨rfl, -⟩ | ⟨rfl, -⟩ | ⟨rfl, -⟩ | ⟨rfl, -⟩ | ⟨rfl, -⟩ | ⟨rfl, -⟩ | ⟨rfl, -⟩ | ⟨rfl, -⟩ | ⟨⟨-, hhi⟩, -⟩ | ⟨rfl, -⟩ |
    ⟨rfl, -⟩ := readRow_eq_some k cmd i h
  case inr.inr.inr.inr.inr.inr.inr.inr.inl => omega
  all_goals decide

theorem le_of_writeRow (k : BitVec 8) (cmd : Tri) (i : Instr) (h : writeRow k cmd = some i) : k.toNat ≤ 135 := by
  obtain ⟨rfl, -⟩ | ⟨rfl, -⟩ | ⟨rfl, -⟩ | ⟨rfl, -⟩ | ⟨⟨-, hhi⟩, -⟩ | ⟨rfl, -⟩ | ⟨rfl, -⟩ | ⟨rfl, -⟩ | ⟨rfl, -⟩ :=
    writeRow_eq_some k cmd i h
  case inr.inr.inr.inr.inl => omega
  all_goals decide

theorem le_of_identRow (k : BitVec 8) (cmd : Tri) (i : Instr) (h : identRow k cmd = some i) : k.toNat ≤ 7 := by
  obtain ⟨rfl, -⟩ | ⟨rfl, -⟩ | ⟨rfl, -⟩ | ⟨rfl, -⟩ | ⟨rfl, -⟩ | ⟨rfl, -⟩ | ⟨rfl, -⟩ | ⟨rfl, -⟩ := identRow_eq_some k cmd i h
  all_goals decide

/-- The decoder has a row for every legal protocol state, and for no other (40_power_and_transfer.md R103). -/
theorem legal_iff_poweredRow (p : PState) (cmd : Tri) : p.legal = true ↔ ∃ i, poweredRow p cmd = some i := by
  rw [legal_iff]
  constructor
  · rintro (rfl | rfl | ⟨k, hk, rfl⟩ | ⟨k, hk, rfl⟩ | ⟨k, hk, rfl⟩)
    · exact ⟨_, poweredRow_idle cmd⟩
    · exact ⟨_, poweredRow_awaitCmd cmd⟩
    · exact exists_readRow k cmd hk
    · exact exists_writeRow k cmd hk
    · exact exists_identRow k cmd hk
  · rintro ⟨i, hrow⟩
    obtain ⟨hp, -⟩ | ⟨hp, -⟩ | ⟨hp, hread⟩ | ⟨hp, hwrite⟩ | ⟨hp, hident⟩ := poweredRow_eq_some p cmd i hrow
    · exact .inl hp
    · exact .inr (.inl hp)
    · exact .inr (.inr (.inl ⟨p.step, le_of_readRow _ cmd i hread, hp⟩))
    · exact .inr (.inr (.inr (.inl ⟨p.step, le_of_writeRow _ cmd i hwrite, hp⟩)))
    · exact .inr (.inr (.inr (.inr ⟨p.step, le_of_identRow _ cmd i hident, hp⟩)))

/-! ### A step on one operation -/

/-- A step on a view operation runs it. -/
theorem step_view (s : State) (v : View) (rest : List Request) (h : s.pending = .view v :: rest) :
    step s = execView v (s.setPending rest) := by
  have htake : nextRequest s = some (.view v, s.setPending rest) := (nextRequest_eq_some s _ _).2 ⟨rest, h, rfl⟩
  rw [step, htake]

/-- With nothing issued a step changes nothing (40_power_and_transfer.md R107). -/
theorem step_nothing (s : State) (h : s.pending = []) : step s = .next s := by
  rw [step, (nextRequest_eq_none s).2 h]

/-- Settles O27, one kind of operation at a time. -/
theorem stepRunsDecodedInstruction : Obligations.StepRunsDecodedInstruction :=
  ⟨fun s w rest i hpend hdec => by rw [step_op s w rest hpend, hdec]; rfl, step_view, step_nothing⟩

/-- A TRANSFER on a powered card in a legal protocol state (R103). -/
theorem step_powered (s : State) (w : OpWord) (rest : List Request) (hpend : s.pending = .op w :: rest)
    (hop : opField w = 0b00#2) (hon : s.poweredOn = true) (hlegal : s.pstate.legal = true) :
    step s = transferEffect (triField w) (s.setPending rest) := by
  obtain ⟨i, hrow⟩ := (legal_iff_poweredRow s.pstate (triField w)).1 hlegal
  rw [step_op s w rest hpend, decode_powered s w i hon hop hrow]
  exact exec_eq_transferEffect (triField w) i (s.setPending rest) hon hrow

/-- A TRANSFER on a powered card in an illegal protocol state (70_reset_and_hazards.md R276). -/
theorem step_illegal (s : State) (w : OpWord) (rest : List Request) (hpend : s.pending = .op w :: rest)
    (hop : opField w = 0b00#2) (hon : s.poweredOn = true) (hill : s.pstate.legal = false) :
    step s = .fault (.illegalState s.pstate) := by
  have hrow : poweredRow s.pstate (triField w) = none := by
    rw [Option.eq_none_iff_forall_ne_some]
    intro i hi
    have hlegal := (legal_iff_poweredRow s.pstate (triField w)).2 ⟨i, hi⟩
    rw [hill] at hlegal
    contradiction
  rw [step_op s w rest hpend, decode_transfer _ w hop, transferRow, if_pos (show s.context.poweredOn = true from hon),
    State.context_pstate, hrow]
  rfl

/-- A TRANSFER on an unpowered card (R102). -/
theorem step_unpowered (s : State) (w : OpWord) (rest : List Request) (hpend : s.pending = .op w :: rest)
    (hop : opField w = 0b00#2) (hoff : s.poweredOn = false) :
    step s = .next ((s.setPending rest).setResponse (some (.transfer false .z))) := by
  rw [step_op s w rest hpend, decode_transfer _ w hop, transferRow_unpowered s.context _ hoff]
  exact (exec_xferUnpowered_eq_next (triField w) _ _).2 ⟨hoff, rfl⟩

theorem step_powerOn (s : State) (rest : List Request) (hpend : s.pending = .op powerOnWord :: rest) :
    step s = exec .powerOn (s.setPending rest) := by
  rw [step_op s _ rest hpend, decode_powerOnWord]
  rfl

theorem step_powerOff (s : State) (rest : List Request) (hpend : s.pending = .op powerOffWord :: rest) :
    step s = exec .powerOff (s.setPending rest) := by
  rw [step_op s _ rest hpend, decode_powerOffWord]
  rfl

theorem step_reserved (s : State) (w : OpWord) (rest : List Request) (hpend : s.pending = .op w :: rest)
    (hres : isReservedWord w = true) : step s = .refused (.reservedOperation w) := by
  rw [step_op s w rest hpend, decode_reserved _ w hres]
  rfl

/-- Settles O28: the decoder has no row for the state. -/
theorem illegalStateFaults : Obligations.IllegalStateFaults := by
  rintro s w hon hill ⟨hhead, hop⟩
  obtain ⟨rest, hpend⟩ := List.head?_eq_some_iff.1 hhead
  exact step_illegal s w rest hpend hop hon hill

/-- Settles O50: the POWER_OFF leaves an unpowered card in both cases, on which POWER_ON sets its three registers. -/
theorem powerCycleReturnsToIdle : Obligations.PowerCycleReturnsToIdle := by
  intro s rest hpend
  obtain ⟨r, hfirst⟩ : ∃ r, step s =
      .next (((s.setPending (.op powerOnWord :: rest)).setPoweredOn false).setResponse r) := by
    rw [step_powerOff s (.op powerOnWord :: rest) hpend]
    cases hpow : s.poweredOn with
    | true => exact ⟨_, (exec_powerOff_eq_next _ _).2 (.inr ⟨hpow, rfl⟩)⟩
    | false => exact ⟨_, (exec_powerOff_eq_next _ _).2 (.inl ⟨hpow, by rw [← hpow]; rfl⟩)⟩
  have hsecond := (exec_powerOn_eq_next (((s.setPending rest).setPoweredOn false).setResponse r) _).2 (.inr ⟨rfl, rfl⟩)
  rw [steps_succ 1 s _ hfirst]
  exact steps_succ 0 _ _ ((step_powerOn _ rest rfl).trans hsecond)

/-! ### What a step can do -/

/-- What a step that answers has done: nothing, or one operation of one kind. -/
inductive Answered (s t : State) : Prop where
  | nothing (hpend : s.pending = []) (ht : t = s)
  | powerOn (rest : List Request) (hpend : s.pending = .op powerOnWord :: rest)
      (hexec : exec .powerOn (s.setPending rest) = .next t)
  | powerOff (rest : List Request) (hpend : s.pending = .op powerOffWord :: rest)
      (hexec : exec .powerOff (s.setPending rest) = .next t)
  | unpowered (w : OpWord) (rest : List Request) (hpend : s.pending = .op w :: rest) (hop : opField w = 0b00#2)
      (hoff : s.poweredOn = false) (ht : t = (s.setPending rest).setResponse (some (.transfer false .z)))
  | powered (w : OpWord) (rest : List Request) (u : State) (hpend : s.pending = .op w :: rest) (hop : opField w = 0b00#2)
      (hon : s.poweredOn = true) (hlegal : s.pstate.legal = true)
      (hwork : storeWork (triField w) (s.setPending rest) = .next u)
      (ht : t = afterTransfer (triField w) (s.setPending rest) u)
  | view (v : View) (rest : List Request) (hpend : s.pending = .view v :: rest)
      (hview : execView v (s.setPending rest) = .next t)

/-- A powered TRANSFER answers where its work on the store does. -/
theorem transferEffect_eq_next (cmd : Tri) (s t : State) :
    transferEffect cmd s = .next t ↔ ∃ u, storeWork cmd s = .next u ∧ t = afterTransfer cmd s u := by
  simp only [transferEffect, andThen_eq_next, Host.Outcome.next.injEq]
  exact exists_congr fun _ => and_congr_right fun _ => eq_comm

/-- Every step that answers is of one of these kinds. -/
theorem answered_of_step (s t : State) (h : step s = .next t) : Answered s t := by
  match hpend : s.pending with
  | [] =>
    rw [step_nothing s hpend] at h
    exact .nothing hpend (Host.Outcome.next.inj h).symm
  | .view v :: rest => exact .view v rest hpend (step_view s v rest hpend ▸ h)
  | .op w :: rest =>
    cases hres : isReservedWord w with
    | true => rw [step_reserved s w rest hpend hres] at h; contradiction
    | false =>
      obtain hop | rfl | rfl := opField_cases_of_not_reserved w hres
      · cases hon : s.poweredOn with
        | false =>
          rw [step_unpowered s w rest hpend hop hon] at h
          exact .unpowered w rest hpend hop hon (Host.Outcome.next.inj h).symm
        | true =>
          cases hlegal : s.pstate.legal with
          | false => rw [step_illegal s w rest hpend hop hon hlegal] at h; contradiction
          | true =>
            rw [step_powered s w rest hpend hop hon hlegal, transferEffect_eq_next] at h
            obtain ⟨u, hwork, ht⟩ := h
            exact .powered w rest u hpend hop hon hlegal hwork ht
      · exact .powerOn rest hpend (step_powerOn s rest hpend ▸ h)
      · exact .powerOff rest hpend (step_powerOff s rest hpend ▸ h)

/-! ### What the work on the store can be -/

/-- What a powered TRANSFER that answers has done to the store and the write buffer (43_write_sector.md R177, R181). -/
inductive StoreChange (cmd : Tri) (s u : State) : Prop where
  /-- nothing: no data byte of a write on a valid sector, and no commit at its end -/
  | kept (hdata : s.pstate.tag = 0b011#3 → movesData s.pstate = true → s.address = poison)
      (hend : s.pstate = PState.write 135 → ¬(s.writeCommit = .atEnd ∧ s.address ≠ poison)) (hu : u = s)
  /-- a data byte under `PER_BYTE` -/
  | stored (htag : s.pstate.tag = 0b011#3) (hmoves : movesData s.pstate = true) (hvalid : s.address ≠ poison)
      (hcommit : s.writeCommit = .perByte) (hk : dataOffset s < Config.cardSize)
      (hu : u = s.setStorage (s.storage.write (dataOffset s) (conc cmd)))
  /-- a data byte that goes to the write buffer and no further -/
  | buffered (htag : s.pstate.tag = 0b011#3) (hmoves : movesData s.pstate = true) (hvalid : s.address ≠ poison)
      (hcommit : s.writeCommit ≠ .perByte) (hlast : ¬(s.writeCommit = .afterData ∧ s.pstate.step.toNat = 131))
      (hi : s.byteCounter.toNat < Config.sectorSize) (hu : u = Machine.buffered (conc cmd) s)
  /-- the last data byte under `AFTER_DATA`, and the commit -/
  | committed (htag : s.pstate.tag = 0b011#3) (hmoves : movesData s.pstate = true) (hvalid : s.address ≠ poison)
      (hlast : s.writeCommit = .afterData ∧ s.pstate.step.toNat = 131) (hi : s.byteCounter.toNat < Config.sectorSize)
      (hcommits : commitBuffer (Machine.buffered (conc cmd) s) (sectorBase s.address) = .next u)
  /-- the commit at the end under `AT_END` -/
  | ended (hp : s.pstate = PState.write 135) (hends : s.writeCommit = .atEnd ∧ s.address ≠ poison)
      (hcommits : commitBuffer s (sectorBase s.address) = .next u)

/-- A data byte of a write that is stored. -/
theorem storeChange_of_storeDataByte (cmd : Tri) (s u : State) (htag : s.pstate.tag = 0b011#3)
    (hmoves : movesData s.pstate = true) (h : storeDataByte (conc cmd) s = .next u) : StoreChange cmd s u := by
  have hnotend : s.pstate ≠ PState.write 135 := by
    intro hp
    rw [hp] at hmoves
    contradiction
  by_cases hvalid : s.address = poison
  · rw [storeDataByte_poison _ s hvalid] at h
    exact .kept (fun _ _ => hvalid) (fun hp => absurd hp hnotend) (Host.Outcome.next.inj h).symm
  by_cases hc : s.writeCommit = .perByte
  · simp only [storeDataByte, if_neg hvalid, hc] at h
    obtain ⟨hk, hu⟩ := (memWrite_eq_next _ _ _ _).1 h
    exact .stored htag hmoves hvalid hc hk hu
  have hi : s.byteCounter.toNat < Config.sectorSize := by
    by_contra hi
    have hstop : bufferByte s s.byteCounter.toNat (conc cmd) = .fault (.bufferIndex s.byteCounter.toNat) := if_neg hi
    cases hcommit : s.writeCommit with
    | perByte => exact hc hcommit
    | afterData => simp only [storeDataByte, if_neg hvalid, hcommit, hstop, andThen] at h; contradiction
    | atEnd => simp only [storeDataByte, if_neg hvalid, hcommit, hstop] at h; contradiction
  rw [storeDataByte_buffered _ s hvalid hc hi] at h
  split_ifs at h with hlast
  · exact .committed htag hmoves hvalid hlast hi h
  · exact .buffered htag hmoves hvalid hc hlast hi (Host.Outcome.next.inj h).symm

/-- Every work on the store that answers is of one of these kinds. -/
theorem storeChange_of_storeWork (cmd : Tri) (s u : State) (h : storeWork cmd s = .next u) : StoreChange cmd s u := by
  unfold storeWork at h
  split_ifs at h with hmoves htag hend
  · obtain ⟨-, hu⟩ := (memRead_eq_next _ _ _ _).1 h
    refine .kept (fun hw => absurd (htag.symm.trans hw) (by decide)) (fun hp => ?_) (Host.Outcome.next.inj hu).symm
    rw [hp] at hmoves
    contradiction
  · exact storeChange_of_storeDataByte cmd s u (write_of_movesData hmoves htag) hmoves h
  · by_cases hends : s.writeCommit = .atEnd ∧ s.address ≠ poison
    · rw [commitAtEnd_of_atEnd s hends] at h
      exact .ended hend hends h
    · rw [commitAtEnd_of_not_atEnd s hends] at h
      exact .kept (fun _ hm => absurd hm hmoves) (fun _ => hends) (Host.Outcome.next.inj h).symm
  · exact .kept (fun _ hm => absurd hm hmoves) (fun hp => absurd hp hend) (Host.Outcome.next.inj h).symm

/-- The work on the store changes the store and the write buffer alone. -/
theorem storeWork_eq_next (cmd : Tri) (s u : State) (h : storeWork cmd s = .next u) :
    ∃ m w, u = (s.setWbuf w).setStorage m := by
  cases storeChange_of_storeWork cmd s u h with
  | kept _ _ hu => exact ⟨s.storage, s.wbuf, hu⟩
  | stored _ _ _ _ _ hu => exact ⟨_, s.wbuf, hu⟩
  | buffered _ _ _ _ _ _ hu => exact ⟨s.storage, (Machine.buffered (conc cmd) s).wbuf, hu⟩
  | committed _ _ _ _ _ hcommits => exact ⟨_, _, ((commitBuffer_eq_next _ _ _).1 hcommits).2⟩
  | ended _ _ hcommits => exact ⟨_, s.wbuf, ((commitBuffer_eq_next _ _ _).1 hcommits).2⟩

/-! ### Who writes `flag`, `powered_on` and `WRITE_COMMIT` -/

/-- A powered TRANSFER writes none of the card's power, `flag`, `WRITE_COMMIT` and queue. -/
theorem afterTransfer_keeps (cmd : Tri) (s u : State) (h : storeWork cmd s = .next u) :
    (afterTransfer cmd s u).poweredOn = s.poweredOn ∧ (afterTransfer cmd s u).flag = s.flag ∧
      (afterTransfer cmd s u).writeCommit = s.writeCommit ∧ (afterTransfer cmd s u).pending = s.pending := by
  obtain ⟨m, w, rfl⟩ := storeWork_eq_next cmd s u h
  exact ⟨rfl, rfl, rfl, rfl⟩

/-- Nor does a view operation. -/
theorem execView_keeps (v : View) (s t : State) (h : execView v s = .next t) :
    t.poweredOn = s.poweredOn ∧ t.flag = s.flag ∧ t.writeCommit = s.writeCommit ∧ t.pending = s.pending := by
  obtain ⟨-, -, rfl | ⟨b, rfl⟩⟩ := execView_eq_next v s t h <;> exact ⟨rfl, rfl, rfl, rfl⟩

/-- Settles O38, by the kinds of steps. -/
theorem writeCommitIsFixed : Obligations.WriteCommitIsFixed := by
  intro s t hstep
  cases answered_of_step s t hstep with
  | nothing _ ht => rw [ht]
  | powerOn rest _ hexec => obtain ⟨-, rfl⟩ | ⟨-, rfl⟩ := (exec_powerOn_eq_next _ t).1 hexec <;> rfl
  | powerOff rest _ hexec => obtain ⟨-, rfl⟩ | ⟨-, rfl⟩ := (exec_powerOff_eq_next _ t).1 hexec <;> rfl
  | unpowered w rest _ _ _ ht => rw [ht]; rfl
  | powered w rest u _ _ _ _ hwork ht =>
    obtain ⟨-, -, hcommit, -⟩ := afterTransfer_keeps _ _ u hwork
    exact ht ▸ hcommit
  | view v rest _ hview =>
    obtain ⟨-, -, hcommit, -⟩ := execView_keeps v _ t hview
    exact hcommit

/-- What O35 says of a step from `s` to `t`. -/
def FlagAndPowerRule (s t : State) : Prop :=
  (t.flag ≠ s.flag → s.pending.head? = some (.op 0x200#11) ∧ s.poweredOn = false ∧ t.flag = 0x08#8) ∧
    (s.poweredOn = false → t.poweredOn = true → s.pending.head? = some (.op 0x200#11)) ∧
    (s.poweredOn = true → t.poweredOn = false → s.pending.head? = some (.op 0x400#11))

/-- A step that leaves both alone keeps the rule. -/
theorem flagAndPowerRule_of_kept {s t : State} (hpow : t.poweredOn = s.poweredOn) (hflag : t.flag = s.flag) :
    FlagAndPowerRule s t := by
  refine ⟨fun hne => absurd hflag hne, fun hoff hon => ?_, fun hon hoff => ?_⟩
  · rw [hpow, hoff] at hon
    contradiction
  · rw [hpow, hon] at hoff
    contradiction

/-- Settles O35, by the kinds of steps: the two POWER operations alone write either. -/
theorem onlyPowerOperationsWriteFlagAndPower : Obligations.OnlyPowerOperationsWriteFlagAndPower := by
  intro s t hstep
  change FlagAndPowerRule s t
  cases answered_of_step s t hstep with
  | nothing _ ht => exact flagAndPowerRule_of_kept (by rw [ht]) (by rw [ht])
  | powerOn rest hpend hexec =>
    obtain ⟨-, rfl⟩ | ⟨hoff, rfl⟩ := (exec_powerOn_eq_next _ t).1 hexec
    · exact flagAndPowerRule_of_kept rfl rfl
    · have hhead : s.pending.head? = some (.op powerOnWord) := by rw [hpend]; rfl
      exact ⟨fun _ => ⟨hhead, hoff, rfl⟩, fun _ _ => hhead, fun _ hoff' => absurd hoff' (by simp)⟩
  | powerOff rest hpend hexec =>
    obtain ⟨-, rfl⟩ | ⟨hon, rfl⟩ := (exec_powerOff_eq_next _ t).1 hexec
    · exact flagAndPowerRule_of_kept rfl rfl
    · have hhead : s.pending.head? = some (.op powerOffWord) := by rw [hpend]; rfl
      exact ⟨fun hne => absurd rfl hne, fun _ hon' => absurd hon' (by simp), fun _ _ => hhead⟩
  | unpowered w rest _ _ _ ht => exact flagAndPowerRule_of_kept (by rw [ht]; rfl) (by rw [ht]; rfl)
  | powered w rest u _ _ _ _ hwork ht =>
    obtain ⟨hpow, hflag, -, -⟩ := afterTransfer_keeps _ _ u hwork
    exact flagAndPowerRule_of_kept (ht ▸ hpow) (ht ▸ hflag)
  | view v rest _ hview =>
    obtain ⟨hpow, hflag, -, -⟩ := execView_keeps v _ t hview
    exact flagAndPowerRule_of_kept hpow hflag

/-! ### What a step can refuse -/

/-- The rule stops, if it stops, with a fault. -/
def NeverRefuses (r : Result) : Prop := ∀ e, r ≠ .refused e

theorem neverRefuses_next (s : State) : NeverRefuses (.next s) := fun _ => by simp

theorem neverRefuses_andThen {r : Result} {f : State → Result} (hr : NeverRefuses r) (hf : ∀ s, NeverRefuses (f s)) :
    NeverRefuses (andThen r f) := by
  cases r with
  | next s => exact hf s
  | fault e => exact fun _ => by simp [andThen]
  | refused e => exact absurd rfl (hr e)

theorem neverRefuses_memRead (s : State) (k : Nat) {f : Byte → Result} (hf : ∀ b, NeverRefuses (f b)) :
    NeverRefuses (memRead s k f) := by
  unfold memRead
  split
  · exact hf _
  · exact fun _ => by simp

theorem neverRefuses_memWrite (s : State) (k : Nat) (b : Byte) : NeverRefuses (memWrite s k b) := by
  unfold memWrite
  split <;> exact fun _ => by simp

theorem neverRefuses_bufferByte (s : State) (i : Nat) (b : Byte) : NeverRefuses (bufferByte s i b) := by
  unfold bufferByte
  split <;> exact fun _ => by simp

theorem neverRefuses_commitBuffer (s : State) (base : Nat) : NeverRefuses (commitBuffer s base) := by
  unfold commitBuffer
  split <;> exact fun _ => by simp

theorem neverRefuses_storeDataByte (b : Byte) (s : State) : NeverRefuses (storeDataByte b s) := by
  unfold storeDataByte
  split
  · exact neverRefuses_next s
  · split
    · exact neverRefuses_memWrite _ _ _
    · refine neverRefuses_andThen (neverRefuses_bufferByte _ _ _) fun u => ?_
      split
      · exact neverRefuses_commitBuffer _ _
      · exact neverRefuses_next u
    · exact neverRefuses_bufferByte _ _ _

theorem neverRefuses_storeWork (cmd : Tri) (s : State) : NeverRefuses (storeWork cmd s) := by
  unfold storeWork commitAtEnd
  split_ifs
  · exact neverRefuses_memRead _ _ fun _ => neverRefuses_next s
  · exact neverRefuses_storeDataByte _ _
  · exact neverRefuses_commitBuffer _ _
  · exact neverRefuses_next s
  · exact neverRefuses_next s

/-- A view operation refuses during an open frame only (20_memory.md R64). -/
theorem execView_eq_refused (v : View) (s : State) (e : Refusal) (h : execView v s = .refused e) :
    e = .viewDuringFrame := by
  unfold execView at h
  split at h
  · have hread (k : Nat) : NeverRefuses (viewRead k s) := neverRefuses_memRead s k fun _ => neverRefuses_next _
    have hwrite (k : Nat) (b : Byte) : NeverRefuses (viewWrite k b s) :=
      neverRefuses_andThen (neverRefuses_memWrite s k b) fun _ => neverRefuses_next _
    cases v with
    | readSector n i => exact absurd h (hread _ e)
    | writeSector n i b => exact absurd h (hwrite _ b e)
    | readBlock b j => exact absurd h (hread _ e)
    | writeBlock b j c => exact absurd h (hwrite _ c e)
  · exact (Host.Outcome.refused.inj h).symm

theorem neverRefuses_powerOn (s : State) : NeverRefuses (exec .powerOn s) := by
  intro e
  cases h : s.poweredOn <;> simp [exec, execPowerOn, h]

theorem neverRefuses_powerOff (s : State) : NeverRefuses (exec .powerOff s) := by
  intro e
  cases h : s.poweredOn <;> simp [exec, execPowerOff, h]

/-- A step refuses a reserved word, or a view operation during an open frame, and nothing else (30_encoding.md R88,
20_memory.md R64). -/
theorem step_eq_refused (s : State) (e : Refusal) (h : step s = .refused e) :
    (∃ w, e = .reservedOperation w) ∨ e = .viewDuringFrame := by
  match hpend : s.pending with
  | [] =>
    rw [step_nothing s hpend] at h
    contradiction
  | .view v :: rest => exact .inr (execView_eq_refused v _ e (step_view s v rest hpend ▸ h))
  | .op w :: rest =>
    cases hres : isReservedWord w with
    | true =>
      rw [step_reserved s w rest hpend hres] at h
      exact .inl ⟨w, (Host.Outcome.refused.inj h).symm⟩
    | false =>
      obtain hop | rfl | rfl := opField_cases_of_not_reserved w hres
      · cases hon : s.poweredOn with
        | false => rw [step_unpowered s w rest hpend hop hon] at h; contradiction
        | true =>
          cases hlegal : s.pstate.legal with
          | false => rw [step_illegal s w rest hpend hop hon hlegal] at h; contradiction
          | true =>
            rw [step_powered s w rest hpend hop hon hlegal] at h
            exact absurd h (neverRefuses_andThen (neverRefuses_storeWork _ _) (fun _ => neverRefuses_next _) e)
      · exact absurd h (step_powerOn s rest hpend ▸ neverRefuses_powerOn _ e)
      · exact absurd h (step_powerOff s rest hpend ▸ neverRefuses_powerOff _ e)

/-- Settles O30: a step's two refusals are others. -/
theorem stepNeverAppliesUnselectedRow : Obligations.StepNeverAppliesUnselectedRow := by
  intro s hstep
  obtain ⟨w, hw⟩ | hview := step_eq_refused s _ hstep
  · contradiction
  · contradiction

end Sys2Proof.Machine

/-!
The card's invariant (10_state.md R22 to R28, 42_read_sector.md R149): creation has it, every step keeps it, and from a state
that has it a step stops only where a rule refuses the operation.
-/

namespace Sys2Proof.Machine

/-! ### The invariant in each protocol state -/

/-- What the invariant says of the registers in `READ(k)`. -/
structure ReadRegs (k : BitVec 8) (s : State) : Prop where
  msb : k = 3 → s.address = addressOfMsb s.checksum
  address : 4 ≤ k.toNat → s.address = poison ∨ s.address.toNat ≤ maxSector.toNat
  sector : 8 ≤ k.toNat → s.address.toNat ≤ maxSector.toNat
  counter : 4 ≤ k.toNat → s.byteCounter.toNat = min (k.toNat - 8) 128

/-- What the invariant says of the registers in `WRITE(k)`. -/
structure WriteRegs (k : BitVec 8) (s : State) : Prop where
  msb : k = 3 → s.address = addressOfMsb s.checksum
  address : 4 ≤ k.toNat → s.address = poison ∨ s.address.toNat ≤ maxSector.toNat
  counter : 4 ≤ k.toNat → s.byteCounter.toNat = min (k.toNat - 4) 128

theorem legal_read_iff (k : BitVec 8) : (PState.read k).legal = true ↔ k.toNat ≤ 137 := by simp [PState.legal]

theorem legal_write_iff (k : BitVec 8) : (PState.write k).legal = true ↔ k.toNat ≤ 135 := by simp [PState.legal]

theorem legal_ident_iff (k : BitVec 8) : (PState.ident k).legal = true ↔ k.toNat ≤ 7 := by simp [PState.legal]

theorem CardInv.readRegs {s : State} {k : BitVec 8} (h : CardInv s) (hp : s.pstate = PState.read k) :
    k.toNat ≤ 137 ∧ ReadRegs k s := by
  obtain ⟨hlegal, -, -, hmsb, haddr, hsector, -, hstart, hcount, hdone, -, -⟩ := h
  rw [hp] at hlegal hmsb haddr hsector hstart hcount hdone
  have hk : k.toNat ≤ 137 := (legal_read_iff k).1 hlegal
  refine ⟨hk, fun h3 => hmsb (.inl (by rw [h3])), haddr rfl, hsector rfl, fun h4 => ?counter⟩
  obtain hle | hle | hle : k.toNat ≤ 8 ∨ (8 ≤ k.toNat ∧ k.toNat ≤ 136) ∨ k = 137 := by bv_omega
  · rw [hstart rfl h4 hle]
    exact (by simp : (0#8).toNat = 0).trans (by omega)
  · have hc : s.byteCounter.toNat = k.toNat - 8 := hcount rfl hle.1 hle.2
    omega
  · rw [hdone (by rw [hle]), hle]
    rfl

theorem CardInv.writeRegs {s : State} {k : BitVec 8} (h : CardInv s) (hp : s.pstate = PState.write k) :
    k.toNat ≤ 135 ∧ WriteRegs k s := by
  obtain ⟨hlegal, -, -, hmsb, -, -, haddr, -, -, -, hcount, hdone⟩ := h
  rw [hp] at hlegal hmsb haddr hcount hdone
  have hk : k.toNat ≤ 135 := (legal_write_iff k).1 hlegal
  refine ⟨hk, fun h3 => hmsb (.inr (by rw [h3])), haddr rfl, fun h4 => ?counter⟩
  obtain hle | hle : k.toNat ≤ 132 ∨ 133 ≤ k.toNat := by omega
  · have hc : s.byteCounter.toNat = k.toNat - 4 := hcount rfl h4 hle
    omega
  · rw [hdone rfl hle]
    exact (by simp : (128#8).toNat = 128).trans (by omega)

/-- In `READ(k)` the invariant is the one of `ReadRegs`. -/
theorem cardInv_of_read {s : State} {k : BitVec 8} (hp : s.pstate = PState.read k) (hk : k.toNat ≤ 137)
    (hflag : s.poweredOn = true → s.flag = flagReset) (hstore : s.storage.wf = true) (hregs : ReadRegs k s) :
    CardInv s := by
  obtain ⟨hmsb, haddr, hsector, hcount⟩ := hregs
  constructor
  case legal => rw [hp, legal_read_iff]; exact hk
  case flag => exact hflag
  case store => exact hstore
  all_goals rw [hp]
  case msb => exact fun h => hmsb (by simpa using h)
  case readAddress => exact fun _ => haddr
  case readSector => exact fun _ => hsector
  case readStart =>
    intro _ (h4 : 4 ≤ k.toNat) (h8 : k.toNat ≤ 8)
    exact BitVec.eq_of_toNat_eq ((hcount h4).trans (by simp; omega))
  case readCounter =>
    intro _ (h8 : 8 ≤ k.toNat) (h136 : k.toNat ≤ 136)
    change _ = k.toNat - 8
    rw [hcount (by omega)]
    omega
  case readDone =>
    intro h137
    obtain rfl : k = 137 := by simpa using h137
    exact BitVec.eq_of_toNat_eq (hcount (by decide))
  all_goals exact fun htag => absurd htag (by simp)

/-- In `WRITE(k)` the invariant is the one of `WriteRegs`. -/
theorem cardInv_of_write {s : State} {k : BitVec 8} (hp : s.pstate = PState.write k) (hk : k.toNat ≤ 135)
    (hflag : s.poweredOn = true → s.flag = flagReset) (hstore : s.storage.wf = true) (hregs : WriteRegs k s) :
    CardInv s := by
  obtain ⟨hmsb, haddr, hcount⟩ := hregs
  constructor
  case legal => rw [hp, legal_write_iff]; exact hk
  case flag => exact hflag
  case store => exact hstore
  all_goals rw [hp]
  case msb => exact fun h => hmsb (by simpa using h)
  case writeAddress => exact fun _ => haddr
  case writeCounter =>
    intro _ (h4 : 4 ≤ k.toNat) (h132 : k.toNat ≤ 132)
    change _ = k.toNat - 4
    rw [hcount h4]
    omega
  case writeDone =>
    intro _ (h133 : 133 ≤ k.toNat)
    exact BitVec.eq_of_toNat_eq ((hcount (by omega)).trans (by simp; omega))
  all_goals exact fun htag => absurd htag (by simp)

/-- Outside a read and a write the invariant says nothing of the registers of a frame. -/
theorem cardInv_of_other {s : State} (hlegal : s.pstate.legal = true) (hread : s.pstate.tag ≠ 0b010#3)
    (hwrite : s.pstate.tag ≠ 0b011#3) (hflag : s.poweredOn = true → s.flag = flagReset) (hstore : s.storage.wf = true) :
    CardInv s := by
  have hstates : ∀ k, s.pstate ≠ PState.read k ∧ s.pstate ≠ PState.write k := fun k =>
    ⟨fun hp => hread (by rw [hp]), fun hp => hwrite (by rw [hp])⟩
  constructor
  case legal => exact hlegal
  case flag => exact hflag
  case store => exact hstore
  case msb => exact fun h => h.elim (fun hp => absurd hp (hstates 3).1) fun hp => absurd hp (hstates 3).2
  case readDone => exact fun hp => absurd hp (hstates 137).1
  all_goals exact fun htag => by contradiction

/-- The invariant does not look at the queue and the outputs. -/
theorem CardInv.setPending {s : State} (h : CardInv s) (rest : List Request) : CardInv (s.setPending rest) :=
  ⟨h.legal, h.flag, h.store, h.msb, h.readAddress, h.readSector, h.writeAddress, h.readStart, h.readCounter, h.readDone,
    h.writeCounter, h.writeDone⟩

theorem CardInv.setResponse {s : State} (h : CardInv s) (r : Option Response) : CardInv (s.setResponse r) :=
  ⟨h.legal, h.flag, h.store, h.msb, h.readAddress, h.readSector, h.writeAddress, h.readStart, h.readCounter, h.readDone,
    h.writeCounter, h.writeDone⟩

/-! ### A powered TRANSFER keeps it -/

/-- The work on the store keeps the canonical form. -/
theorem storeWork_wf (cmd : Tri) (s u : State) (hwf : s.storage.wf = true) (h : storeWork cmd s = .next u) :
    u.storage.wf = true := by
  have hcommit : ∀ (v w : State) (base : Nat), v.storage.wf = true → commitBuffer v base = .next w →
      w.storage.wf = true := by
    intro v w base hv hw
    obtain ⟨hbase, rfl⟩ := (commitBuffer_eq_next _ _ _).1 hw
    exact Memory.writeRun_wf _ _ _ (by rwa [length_buffer]) hv
  cases storeChange_of_storeWork cmd s u h with
  | kept _ _ hu => rwa [hu]
  | stored _ _ _ _ hk hu => rw [hu]; exact Memory.write_wf _ _ _ hk hwf
  | buffered _ _ _ _ _ _ hu => rw [hu]; exact hwf
  | committed _ _ _ _ _ hcommits => exact hcommit (buffered (conc cmd) s) u _ hwf hcommits
  | ended _ _ hcommits => exact hcommit _ u _ hwf hcommits

/-- From step 4 of a table on, `address` stays. -/
theorem nextAddress_later (cmd : Tri) (s : State) (h : 4 ≤ s.pstate.step.toNat) : nextAddress cmd s = s.address := by
  have hne : ∀ q : PState, q.step.toNat < 4 → s.pstate ≠ q := by
    rintro q hq rfl
    omega
  rw [nextAddress, if_neg (not_or.2 ⟨hne _ (by decide), hne _ (by decide)⟩),
    if_neg (not_or.2 ⟨hne _ (by decide), hne _ (by decide)⟩)]

/-- From step 4 of a table on, `byte_counter` counts the data bytes alone. -/
theorem nextCounter_later (s : State) (h : 4 ≤ s.pstate.step.toNat) :
    nextCounter s = if movesData s.pstate then s.byteCounter + 1 else s.byteCounter := by
  have hne : ∀ q : PState, q.step.toNat < 4 → s.pstate ≠ q := by
    rintro q hq rfl
    omega
  rw [nextCounter, if_neg (not_or.2 ⟨hne _ (by decide), hne _ (by decide)⟩)]

/-- Step 2 of a read or a write: the MSB opens `address` and `checksum` (R142, R172). -/
theorem next_step2 (cmd : Tri) (s : State) (hp : s.pstate = PState.read 2 ∨ s.pstate = PState.write 2) :
    nextAddress cmd s = addressOfMsb (conc cmd) ∧ nextChecksum cmd s = conc cmd :=
  ⟨if_pos hp, if_pos hp⟩

/-- Step 3 of a read or a write: the LSB completes `address`, and no data byte has moved (R143, R173). -/
theorem next_step3 (cmd : Tri) (s : State) (hp : s.pstate = PState.read 3 ∨ s.pstate = PState.write 3) :
    nextAddress cmd s = decodeAddress (withLsb s.address (conc cmd)) ∧ nextChecksum cmd s = s.checksum ^^^ conc cmd ∧
      nextCounter s = 0 := by
  have hnot : ¬(s.pstate = PState.read 2 ∨ s.pstate = PState.write 2) := by
    obtain hp | hp := hp <;> rw [hp] <;> decide
  exact ⟨(if_neg hnot).trans (if_pos hp), (if_neg hnot).trans (if_pos (by tauto)), if_pos hp⟩

/-- The decode gives `POISON` or a sector number (42_read_sector.md R144). -/
theorem decodeAddress_range (raw : BitVec 16) :
    decodeAddress raw = poison ∨ (decodeAddress raw).toNat ≤ maxSector.toNat := by
  unfold decodeAddress
  split_ifs with h
  · exact .inl rfl
  · exact .inr (Nat.not_lt.1 (mt BitVec.lt_def.2 h))

/-- From step 3 of a read or a write on, the address left is `POISON` or a sector number. -/
theorem nextAddress_range (cmd : Tri) (s : State) (k : BitVec 8)
    (hp : s.pstate = PState.read k ∨ s.pstate = PState.write k) (hk : 3 ≤ k.toNat)
    (haddr : 4 ≤ k.toNat → s.address = poison ∨ s.address.toNat ≤ maxSector.toNat) :
    nextAddress cmd s = poison ∨ (nextAddress cmd s).toNat ≤ maxSector.toNat := by
  obtain rfl | hlater : k = 3 ∨ 4 ≤ k.toNat := by bv_omega
  · obtain ⟨ha, -, -⟩ := next_step3 cmd s hp
    rw [ha]
    exact decodeAddress_range _
  · have hstep : s.pstate.step = k := by obtain hp | hp := hp <;> rw [hp]
    rw [nextAddress_later cmd s (by rwa [hstep])]
    exact haddr hlater

/-- From step 3 of a read or a write on, `byte_counter` is 0 and then counts the data bytes. -/
theorem nextCounter_eq (cmd : Tri) (s : State) (k : BitVec 8)
    (hp : s.pstate = PState.read k ∨ s.pstate = PState.write k) (hk : 3 ≤ k.toNat) :
    (k = 3 ∧ nextCounter s = 0) ∨
      (4 ≤ k.toNat ∧ nextCounter s = if movesData s.pstate then s.byteCounter + 1 else s.byteCounter) := by
  obtain rfl | hlater : k = 3 ∨ 4 ≤ k.toNat := by bv_omega
  · obtain ⟨-, -, hcounter⟩ := next_step3 cmd s hp
    exact .inl ⟨rfl, hcounter⟩
  · have hstep : s.pstate.step = k := by obtain hp | hp := hp <;> rw [hp]
    exact .inr ⟨hlater, nextCounter_later s (by rwa [hstep])⟩

/-- `READ(k)` moves on with the registers that `READ(k + 1)` asks for. -/
theorem readRegs_afterTransfer (cmd : Tri) (s u : State) (k : BitVec 8) (hp : s.pstate = PState.read k)
    (hk : k.toNat ≤ 137) (hregs : ReadRegs k s) (hgoes : ¬(k = 137 ∨ (k = 7 ∧ s.address = poison))) :
    ReadRegs (k + 1) (afterTransfer cmd s u) := by
  obtain ⟨-, haddr, hsector, hcount⟩ := hregs
  have hsucc : (k + 1).toNat = k.toNat + 1 := by bv_omega
  constructor
  case msb =>
    intro h3
    obtain rfl : k = 2 := by bv_omega
    obtain ⟨ha, hc⟩ := next_step2 cmd s (.inl hp)
    exact ha.trans (congrArg addressOfMsb hc.symm)
  case address => exact fun h4 => nextAddress_range cmd s k (.inl hp) (by omega) haddr
  case sector =>
    intro h8
    change (nextAddress cmd s).toNat ≤ _
    rw [nextAddress_later cmd s (by rw [hp]; change 4 ≤ k.toNat; omega)]
    obtain h7 | h8 : k = 7 ∨ 8 ≤ k.toNat := by bv_omega
    · exact (haddr (by rw [h7]; decide)).resolve_left fun ha => hgoes (.inr ⟨h7, ha⟩)
    · exact hsector h8
  case counter =>
    intro h4
    change (nextCounter s).toNat = _
    obtain ⟨rfl, hzero⟩ | ⟨hlater, hstep⟩ := nextCounter_eq cmd s k (.inl hp) (by omega)
    · rw [hzero]
      rfl
    · have hc := hcount hlater
      have hlast : k ≠ 137 := fun h => hgoes (.inl h)
      rw [hp, if_congr (movesData_read k) rfl rfl] at hstep
      split_ifs at hstep with hdata <;> rw [hstep, hsucc] <;> bv_omega

/-- `WRITE(k)` moves on with the registers that `WRITE(k + 1)` asks for. -/
theorem writeRegs_afterTransfer (cmd : Tri) (s u : State) (k : BitVec 8) (hp : s.pstate = PState.write k)
    (hk : k.toNat ≤ 135) (hregs : WriteRegs k s) : WriteRegs (k + 1) (afterTransfer cmd s u) := by
  obtain ⟨-, haddr, hcount⟩ := hregs
  have hsucc : (k + 1).toNat = k.toNat + 1 := by bv_omega
  constructor
  case msb =>
    intro h3
    obtain rfl : k = 2 := by bv_omega
    obtain ⟨ha, hc⟩ := next_step2 cmd s (.inr hp)
    exact ha.trans (congrArg addressOfMsb hc.symm)
  case address => exact fun h4 => nextAddress_range cmd s k (.inr hp) (by omega) haddr
  case counter =>
    intro h4
    change (nextCounter s).toNat = _
    obtain ⟨rfl, hzero⟩ | ⟨hlater, hstep⟩ := nextCounter_eq cmd s k (.inr hp) (by omega)
    · rw [hzero]
      rfl
    · have hc := hcount hlater
      rw [hp, if_congr (movesData_write k) rfl rfl] at hstep
      split_ifs at hstep with hdata <;> rw [hstep, hsucc] <;> bv_omega

/-- A powered TRANSFER keeps the invariant, in each of the five tables. -/
theorem cardInv_afterTransfer (cmd : Tri) (s u : State) (h : CardInv s) (hwork : storeWork cmd s = .next u) :
    CardInv (afterTransfer cmd s u) := by
  obtain ⟨hpow, hflag, -, -⟩ := afterTransfer_keeps cmd s u hwork
  have hflag : (afterTransfer cmd s u).poweredOn = true → (afterTransfer cmd s u).flag = flagReset := by
    rw [hpow, hflag]
    exact h.flag
  have hstore : (afterTransfer cmd s u).storage.wf = true := storeWork_wf cmd s u h.store hwork
  have hother : ∀ q : PState, (afterTransfer cmd s u).pstate = q → q.legal = true → q.tag ≠ 0b010#3 → q.tag ≠ 0b011#3 →
      CardInv (afterTransfer cmd s u) := by
    rintro q rfl hlegal hread hwrite
    exact cardInv_of_other hlegal hread hwrite hflag hstore
  have hnext : (afterTransfer cmd s u).pstate = nextPState cmd s.pstate s.address := rfl
  obtain hp | hp | ⟨k, hk, hp⟩ | ⟨k, hk, hp⟩ | ⟨k, hk, hp⟩ := (legal_iff _).1 h.legal
  all_goals rw [hp] at hnext
  · rw [nextPState_idle] at hnext
    split_ifs at hnext
    · exact hother _ hnext rfl (by decide) (by decide)
    · exact hother _ hnext rfl (by decide) (by decide)
  · rw [nextPState_awaitCmd] at hnext
    split_ifs at hnext
    · exact cardInv_of_read hnext (by decide) hflag hstore (by constructor <;> exact fun h => absurd h (by decide))
    · exact cardInv_of_write hnext (by decide) hflag hstore (by constructor <;> exact fun h => absurd h (by decide))
    · exact hother _ hnext rfl (by decide) (by decide)
    · exact hother _ hnext rfl (by decide) (by decide)
  · rw [nextPState_read] at hnext
    split_ifs at hnext with hends
    · exact hother _ hnext rfl (by decide) (by decide)
    · rw [frameEnds_read] at hends
      exact cardInv_of_read hnext (by bv_omega) hflag hstore
        (readRegs_afterTransfer cmd s u k hp hk (h.readRegs hp).2 hends)
  · rw [nextPState_write] at hnext
    split_ifs at hnext with hends
    · exact hother _ hnext rfl (by decide) (by decide)
    · rw [frameEnds_write] at hends
      exact cardInv_of_write hnext (by bv_omega) hflag hstore (writeRegs_afterTransfer cmd s u k hp hk (h.writeRegs hp).2)
  · rw [nextPState_ident] at hnext
    split_ifs at hnext with hends
    · exact hother _ hnext rfl (by decide) (by decide)
    · rw [frameEnds_ident] at hends
      exact hother _ hnext ((legal_ident_iff _).2 (by bv_omega)) (by simp) (by simp)

/-! ### Every step keeps it -/

theorem cardInv_execView (v : View) (s t : State) (h : CardInv s) (hview : execView v s = .next t) : CardInv t := by
  obtain ⟨-, hk, rfl | ⟨b, rfl⟩⟩ := execView_eq_next v s t hview
  · exact h.setResponse _
  · exact ⟨h.legal, h.flag, Memory.write_wf _ _ b hk h.store, h.msb, h.readAddress, h.readSector, h.writeAddress,
      h.readStart, h.readCounter, h.readDone, h.writeCounter, h.writeDone⟩

/-- Settles O43, by the kinds of steps: an operation outside a frame leaves the frame's registers or leaves `IDLE`. -/
theorem stepKeepsCardInv : Obligations.StepKeepsCardInv := by
  intro s t h hstep
  cases answered_of_step s t hstep with
  | nothing _ ht => rwa [ht]
  | powerOn rest _ hexec =>
    obtain ⟨-, rfl⟩ | ⟨-, rfl⟩ := (exec_powerOn_eq_next _ t).1 hexec
    · exact (h.setPending rest).setResponse _
    · exact cardInv_of_other rfl (by simp) (by simp) (fun _ => rfl) h.store
  | powerOff rest _ hexec =>
    obtain ⟨-, rfl⟩ | ⟨-, rfl⟩ := (exec_powerOff_eq_next _ t).1 hexec
    · exact (h.setPending rest).setResponse _
    · exact ⟨h.legal, fun hon => absurd hon (by simp), h.store, h.msb, h.readAddress, h.readSector, h.writeAddress,
        h.readStart, h.readCounter, h.readDone, h.writeCounter, h.writeDone⟩
  | unpowered w rest _ _ _ ht => exact ht ▸ (h.setPending rest).setResponse _
  | powered w rest u _ _ _ _ hwork ht => exact ht ▸ cardInv_afterTransfer _ _ u (h.setPending rest) hwork
  | view v rest _ hview => exact cardInv_execView v _ t (h.setPending rest) hview

/-! ### Creation -/

/-- Settles O41: the card at creation has no cell, and an offset without one reads as 0x00. -/
theorem createdCardIsUnpoweredAndZero : Obligations.CreatedCardIsUnpoweredAndZero := ⟨rfl, fun _ _ => rfl⟩

/-- Settles O42: the card at creation stands in `IDLE` and is unpowered. -/
theorem resetMeetsTheInvariants : Obligations.ResetMeetsTheInvariants := by
  refine ⟨cardInv_of_other rfl (by decide) (by decide) (fun _ => rfl) Memory.wf_nil, ?_⟩
  constructor <;> exact fun hon => absurd hon (by decide)

/-! ### From it a step answers -/

/-- A commit to a valid sector answers. -/
theorem commitBuffer_answers (s : State) (n : BitVec 16) (hn : n.toNat ≤ 0x3FF) :
    ∃ u, commitBuffer s (sectorBase n) = .next u :=
  ⟨_, (commitBuffer_eq_next s _ _).2 ⟨sectorBase_add_sectorSize_le n hn, rfl⟩⟩

/-- Storing a data byte answers while fewer than 128 have moved. -/
theorem storeDataByte_answers (b : Byte) (s : State) (haddr : s.address = poison ∨ s.address.toNat ≤ 0x3FF)
    (hi : s.byteCounter.toNat < 128) : ∃ u, storeDataByte b s = .next u := by
  obtain hpoison | hsector := haddr
  · exact ⟨s, storeDataByte_poison b s hpoison⟩
  have hvalid := ne_poison_of_le_maxSector hsector
  by_cases hc : s.writeCommit = .perByte
  · exact ⟨_, storeDataByte_perByte b s hvalid hc (dataOffset_lt_cardSize s hsector hi)⟩
  · rw [storeDataByte_buffered b s hvalid hc hi]
    split_ifs
    · exact commitBuffer_answers _ _ hsector
    · exact ⟨_, rfl⟩

/-- The work on the store answers: each offset lies in the store and each index in the buffer. -/
theorem storeWork_answers (cmd : Tri) (s : State) (h : CardInv s) : ∃ u, storeWork cmd s = .next u := by
  unfold storeWork
  split_ifs with hmoves hread hend
  · have hp := eq_read_of_tag hread
    obtain ⟨hk, hregs⟩ := h.readRegs hp
    rw [hp, movesData_read] at hmoves
    have hc := hregs.counter (by omega)
    exact ⟨s, (memRead_eq_next _ _ _ _).2 ⟨dataOffset_lt_cardSize s (hregs.sector hmoves.1) (by omega), rfl⟩⟩
  · have hp := eq_write_of_tag (write_of_movesData hmoves hread)
    obtain ⟨hk, hregs⟩ := h.writeRegs hp
    rw [hp, movesData_write] at hmoves
    have hc := hregs.counter (by omega)
    exact storeDataByte_answers _ s (hregs.address (by omega)) (by omega)
  · obtain ⟨-, hregs⟩ := h.writeRegs hend
    by_cases hends : s.writeCommit = .atEnd ∧ s.address ≠ poison
    · rw [commitAtEnd_of_atEnd s hends]
      exact commitBuffer_answers s _ ((hregs.address (by decide)).resolve_left hends.2)
    · exact ⟨s, commitAtEnd_of_not_atEnd s hends⟩
  · exact ⟨s, rfl⟩

/-- A powered TRANSFER answers, with the effect of a TRANSFER. -/
theorem step_powered_answers (s : State) (w : OpWord) (rest : List Request) (h : CardInv s)
    (hpend : s.pending = .op w :: rest) (hop : opField w = 0b00#2) (hon : s.poweredOn = true) :
    ∃ u, storeWork (triField w) (s.setPending rest) = .next u ∧
      step s = .next (afterTransfer (triField w) (s.setPending rest) u) := by
  obtain ⟨u, hwork⟩ := storeWork_answers (triField w) _ (h.setPending rest)
  exact ⟨u, hwork, (step_powered s w rest hpend hop hon h.legal).trans ((transferEffect_eq_next _ _ _).2 ⟨u, hwork, rfl⟩)⟩

/-- The offsets of the storage port lie inside the store (20_memory.md R52, R53, R64). -/
theorem viewOffset_lt_cardSize (v : View) : viewOffset v < Config.cardSize := by
  cases v <;> simp only [viewOffset, Config.sectorSize, Config.blockSize, Config.cardSize] <;> omega

/-- A view operation is refused during an open frame, and in no other state. -/
theorem viewAdmitted_iff (s : State) : viewAdmitted s = true ↔ ¬frameOpen s := by
  simp [viewAdmitted, frameOpen, Bool.not_eq_true, imp_iff_not_or]

theorem viewRead_eq (k : Nat) (s : State) (hk : k < Config.cardSize) :
    viewRead k s = .next (s.setResponse (some (.viewed (s.storage.read k)))) :=
  (memRead_eq_next _ _ _ _).2 ⟨hk, rfl⟩

theorem viewWrite_eq (k : Nat) (b : Byte) (s : State) (hk : k < Config.cardSize) :
    viewWrite k b s = .next ((s.setStorage (s.storage.write k b)).setResponse none) :=
  (andThen_eq_next _ _ _).2 ⟨_, (memWrite_eq_next _ _ _ _).2 ⟨hk, rfl⟩, rfl⟩

theorem execView_readSector (n : BitVec 10) (i : BitVec 7) (s : State) (h : ¬frameOpen s) :
    execView (.readSector n i) s =
      .next (s.setResponse (some (.viewed (s.storage.read (viewOffset (.readSector n i)))))) :=
  (if_pos ((viewAdmitted_iff s).2 h)).trans (viewRead_eq _ s (viewOffset_lt_cardSize (.readSector n i)))

theorem execView_readBlock (b : BitVec 4) (j : BitVec 13) (s : State) (h : ¬frameOpen s) :
    execView (.readBlock b j) s =
      .next (s.setResponse (some (.viewed (s.storage.read (viewOffset (.readBlock b j)))))) :=
  (if_pos ((viewAdmitted_iff s).2 h)).trans (viewRead_eq _ s (viewOffset_lt_cardSize (.readBlock b j)))

theorem execView_writeSector (n : BitVec 10) (i : BitVec 7) (v : Byte) (s : State) (h : ¬frameOpen s) :
    execView (.writeSector n i v) s =
      .next ((s.setStorage (s.storage.write (viewOffset (.writeSector n i v)) v)).setResponse none) :=
  (if_pos ((viewAdmitted_iff s).2 h)).trans (viewWrite_eq _ v s (viewOffset_lt_cardSize (.writeSector n i v)))

theorem execView_writeBlock (b : BitVec 4) (j : BitVec 13) (v : Byte) (s : State) (h : ¬frameOpen s) :
    execView (.writeBlock b j v) s =
      .next ((s.setStorage (s.storage.write (viewOffset (.writeBlock b j v)) v)).setResponse none) :=
  (if_pos ((viewAdmitted_iff s).2 h)).trans (viewWrite_eq _ v s (viewOffset_lt_cardSize (.writeBlock b j v)))

/-- A view operation that is admitted answers (20_memory.md R64). -/
theorem execView_answers (v : View) (s : State) (h : ¬frameOpen s) : ∃ t, execView v s = .next t := by
  cases v with
  | readSector n i => exact ⟨_, execView_readSector n i s h⟩
  | readBlock b j => exact ⟨_, execView_readBlock b j s h⟩
  | writeSector n i v => exact ⟨_, execView_writeSector n i v s h⟩
  | writeBlock b j v => exact ⟨_, execView_writeBlock b j v s h⟩

theorem execView_refused (v : View) (s : State) (h : frameOpen s) : execView v s = .refused .viewDuringFrame :=
  if_neg fun hadm => (viewAdmitted_iff s).1 hadm h

theorem exec_powerOn_answers (s : State) : ∃ t, exec .powerOn s = .next t := by
  cases hpow : s.poweredOn with
  | true => exact ⟨_, (exec_powerOn_eq_next s _).2 (.inl ⟨hpow, rfl⟩)⟩
  | false => exact ⟨_, (exec_powerOn_eq_next s _).2 (.inr ⟨hpow, rfl⟩)⟩

theorem exec_powerOff_answers (s : State) : ∃ t, exec .powerOff s = .next t := by
  cases hpow : s.poweredOn with
  | true => exact ⟨_, (exec_powerOff_eq_next s _).2 (.inr ⟨hpow, rfl⟩)⟩
  | false => exact ⟨_, (exec_powerOff_eq_next s _).2 (.inl ⟨hpow, rfl⟩)⟩

/-- Settles O29, by the kinds of operations: the invariant is used for a TRANSFER of a powered card alone. -/
theorem stepAnswersFromEverySoundState : Obligations.StepAnswersFromEverySoundState := by
  intro s h
  match hpend : s.pending with
  | [] => exact .inl ⟨s, step_nothing s hpend⟩
  | .view v :: rest =>
    rw [step_view s v rest hpend]
    by_cases hopen : frameOpen s
    · exact .inr (.inr ⟨v, rfl, hopen, execView_refused v _ hopen⟩)
    · exact .inl (execView_answers v (s.setPending rest) hopen)
  | .op w :: rest =>
    cases hres : isReservedWord w with
    | true => exact .inr (.inl ⟨w, rfl, hres, step_reserved s w rest hpend hres⟩)
    | false =>
      left
      obtain hop | rfl | rfl := opField_cases_of_not_reserved w hres
      · cases hon : s.poweredOn with
        | false => exact ⟨_, step_unpowered s w rest hpend hop hon⟩
        | true =>
          obtain ⟨u, -, hstep⟩ := step_powered_answers s w rest h hpend hop hon
          exact ⟨_, hstep⟩
      · rw [step_powerOn s rest hpend]
        exact exec_powerOn_answers _
      · rw [step_powerOff s rest hpend]
        exact exec_powerOff_answers _

end Sys2Proof.Machine

/-!
The meaning of the running checksum and of the committed data (42_read_sector.md R152, 43_write_sector.md R175, R182): every
step keeps it, and what follows for the checksum a read answers and the verdict of a write.
-/

namespace Sys2Proof.Machine

/-! ### The frame's invariant in each protocol state -/

theorem frameInv_of_off {s : State} (hoff : s.poweredOn = false) : FrameInv s := by
  constructor <;> exact fun hon => absurd (hoff.symm.trans hon) (by decide)

/-- Outside a read and a write the frame's invariant says nothing. -/
theorem frameInv_of_other {s : State} (hread : s.pstate.tag ≠ 0b010#3) (hwrite : s.pstate.tag ≠ 0b011#3) :
    FrameInv s :=
  ⟨fun _ htag => absurd htag hread, fun _ htag => absurd htag hwrite, fun _ htag => absurd htag hwrite⟩

theorem frameInv_of_read {s : State} {k : BitVec 8} (hp : s.pstate = PState.read k)
    (hsum : 4 ≤ k.toNat → s.address ≠ poison →
      s.checksum = addressMsb s.address ^^^ addressLsb s.address ^^^ xorUpTo (sectorByte s) s.byteCounter.toNat) :
    FrameInv s := by
  constructor
  case read =>
    rw [hp]
    exact fun _ _ => hsum
  all_goals
    rw [hp]
    exact fun _ htag => absurd htag (by simp)

theorem frameInv_of_write {s : State} {k : BitVec 8} (hp : s.pstate = PState.write k)
    (hsum : 4 ≤ k.toNat → k.toNat ≤ 132 → s.address ≠ poison →
      s.checksum = addressMsb s.address ^^^ addressLsb s.address ^^^ xorUpTo (receivedByte s) s.byteCounter.toNat)
    (hcommitted : 132 ≤ k.toNat → s.address ≠ poison → s.writeCommit = .afterData →
      ∀ j < 128, sectorByte s j = receivedByte s j) :
    FrameInv s := by
  constructor
  all_goals rw [hp]
  case read => exact fun _ htag => absurd htag (by simp)
  case write => exact fun _ _ => hsum
  case committed => exact fun _ _ => hcommitted

/-- The invariant does not look at the queue and the outputs. -/
theorem FrameInv.setPending {s : State} (h : FrameInv s) (rest : List Request) : FrameInv (s.setPending rest) :=
  ⟨h.read, h.write, h.committed⟩

theorem FrameInv.setResponse {s : State} (h : FrameInv s) (r : Option Response) : FrameInv (s.setResponse r) :=
  ⟨h.read, h.write, h.committed⟩

/-! ### The checksum after the address -/

theorem addressMsb_append (m l : Byte) : addressMsb (m ++ l) = m := BitVec.extractLsb'_append_eq_left

theorem addressLsb_append (m l : Byte) : addressLsb (m ++ l) = l := BitVec.extractLsb'_append_eq_right

/-- A raw address that the decode does not poison is the sector number (R144). -/
theorem decodeAddress_of_ne_poison {raw : BitVec 16} (h : decodeAddress raw ≠ poison) : decodeAddress raw = raw := by
  unfold decodeAddress at h ⊢
  split_ifs at h ⊢
  · exact absurd rfl h
  · rfl

/-- After step 3 on a valid sector the checksum is the XOR of the two address bytes (R152, R175). -/
theorem checksum_of_step3 (s : State) (l : Byte) (f : Nat → Byte) (hmsb : s.address = addressOfMsb s.checksum)
    (hvalid : decodeAddress (withLsb s.address l) ≠ poison) :
    s.checksum ^^^ l = addressMsb (decodeAddress (withLsb s.address l)) ^^^
      addressLsb (decodeAddress (withLsb s.address l)) ^^^ xorUpTo f 0 := by
  rw [decodeAddress_of_ne_poison hvalid, hmsb, withLsb_addressOfMsb, addressMsb_append, addressLsb_append, xorUpTo_zero]
  exact BitVec.xor_zero.symm

/-- One more data byte, counted and folded in. -/
theorem checksum_of_data {c a b : Byte} {n : BitVec 8} {f g : Nat → Byte} (hn : n.toNat < 255)
    (hc : c = a ^^^ xorUpTo f n.toNat) (hbefore : ∀ j < n.toNat, g j = f j) (hat : g n.toNat = b) :
    c ^^^ b = a ^^^ xorUpTo g (n + 1).toNat := by
  have hsucc : (n + 1).toNat = n.toNat + 1 := by bv_omega
  rw [hsucc, xorUpTo_succ, xorUpTo_congr g f _ hbefore, hat, hc, BitVec.xor_assoc]

/-! ### A read -/

theorem storeWork_of_not_write (cmd : Tri) (s u : State) (hwrite : s.pstate.tag ≠ 0b011#3) (h : storeWork cmd s = .next u) :
    u = s := by
  cases storeChange_of_storeWork cmd s u h with
  | kept _ _ hu => exact hu
  | stored htag | buffered htag | committed htag => exact absurd htag hwrite
  | ended hp => exact absurd (congrArg PState.tag hp) hwrite

/-- From step 4 on, a step that moves no data byte and takes no checksum leaves `address`, `checksum` and
`byte_counter`. -/
theorem next_quiet (cmd : Tri) (s : State) (hstep : 4 ≤ s.pstate.step.toNat) (hquiet : ¬movesData s.pstate = true)
    (hsum : s.pstate ≠ PState.write 132) :
    nextAddress cmd s = s.address ∧ nextChecksum cmd s = s.checksum ∧ nextCounter s = s.byteCounter := by
  have hne : ∀ q : PState, q.step.toNat < 4 → s.pstate ≠ q := by
    rintro q hq rfl
    omega
  refine ⟨nextAddress_later cmd s hstep, ?checksum, by rw [nextCounter_later s hstep, if_neg hquiet]⟩
  rw [nextChecksum, if_neg (not_or.2 ⟨hne _ (by decide), hne _ (by decide)⟩),
    if_neg (not_or.2 ⟨hne _ (by decide), not_or.2 ⟨hne _ (by decide), hsum⟩⟩), if_neg hquiet]

/-- A read that goes on keeps the meaning of the checksum: the address bytes at step 3, then each data byte (R152). -/
theorem frameInv_afterTransfer_read (cmd : Tri) (s : State) (k : BitVec 8) (h : CardInv s) (hframe : FrameInv s)
    (hon : s.poweredOn = true) (hp : s.pstate = PState.read k)
    (hnext : (afterTransfer cmd s s).pstate = PState.read (k + 1)) : FrameInv (afterTransfer cmd s s) := by
  obtain ⟨hk, hregs⟩ := h.readRegs hp
  refine frameInv_of_read hnext fun hlater hvalid => ?_
  change nextAddress cmd s ≠ poison at hvalid
  change nextChecksum cmd s = addressMsb (nextAddress cmd s) ^^^ addressLsb (nextAddress cmd s) ^^^
    xorUpTo (fun j => s.storage.read (sectorBase (nextAddress cmd s) + j)) (nextCounter s).toNat
  obtain rfl | h4 : k = 3 ∨ 4 ≤ k.toNat := by bv_omega
  · obtain ⟨ha, hc, hn⟩ := next_step3 cmd s (.inl hp)
    rw [ha] at hvalid
    rw [ha, hc, hn]
    exact checksum_of_step3 s (conc cmd) _ (hregs.msb rfl) hvalid
  · have hstep : 4 ≤ s.pstate.step.toNat := by rwa [hp]
    have htag : s.pstate.tag = 0b010#3 := by rw [hp]
    rw [nextAddress_later cmd s hstep] at hvalid ⊢
    have hsum := hframe.read hon htag hstep hvalid
    by_cases hmoves : movesData s.pstate = true
    · rw [nextChecksum_data cmd s hmoves, nextCounter_data s hmoves]
      have hcount := hregs.counter h4
      exact checksum_of_data (by omega) hsum (fun _ _ => rfl) (if_pos htag).symm
    · obtain ⟨-, hc, hn⟩ := next_quiet cmd s hstep hmoves (by simp [hp])
      rw [hc, hn]
      exact hsum

/-! ### A write -/

theorem receivedByte_perByte (s : State) (j : Nat) (h : s.writeCommit = .perByte) : receivedByte s j = sectorByte s j := by
  rw [receivedByte, h]

theorem receivedByte_buffered (s : State) (j : Nat) (h : s.writeCommit ≠ .perByte) :
    receivedByte s j = s.wbuf[j]?.getD 0x00#8 := by
  cases hc : s.writeCommit with
  | perByte => exact absurd hc h
  | afterData => rw [receivedByte, hc]
  | atEnd => rw [receivedByte, hc]

/-- A data byte that goes to the buffer is received at its index, and the others stay. -/
theorem receivedByte_of_buffer (b : Byte) (s t : State) (hcommit : s.writeCommit ≠ .perByte)
    (hi : s.byteCounter.toNat < Config.sectorSize) (ht : t.writeCommit = s.writeCommit)
    (hbuf : t.wbuf = (buffered b s).wbuf) :
    receivedByte t s.byteCounter.toNat = b ∧ ∀ j, j ≠ s.byteCounter.toNat → receivedByte t j = receivedByte s j := by
  have hcommit' : t.writeCommit ≠ .perByte := by rwa [ht]
  refine ⟨?_, fun j hj => ?_⟩
  · rw [receivedByte_buffered t _ hcommit', hbuf, buffered_wbuf_same b s hi]
    rfl
  · rw [receivedByte_buffered t _ hcommit', receivedByte_buffered s _ hcommit, hbuf, buffered_wbuf_other b s j hj]

/-- A data step of a write on a valid sector receives its byte at its index, and the others stay (R177, R182). -/
theorem receivedByte_afterTransfer (cmd : Tri) (s u : State) (hwf : s.storage.wf = true) (htag : s.pstate.tag = 0b011#3)
    (hmoves : movesData s.pstate = true) (hvalid : s.address ≠ poison) (hwork : storeWork cmd s = .next u) :
    receivedByte (afterTransfer cmd s u) s.byteCounter.toNat = conc cmd ∧
      ∀ j, j ≠ s.byteCounter.toNat → receivedByte (afterTransfer cmd s u) j = receivedByte s j := by
  have haddr : (afterTransfer cmd s u).address = s.address := nextAddress_data cmd s hmoves
  cases storeChange_of_storeWork cmd s u hwork with
  | kept hdata => exact absurd (hdata htag hmoves) hvalid
  | stored _ _ _ hcommit _ hu =>
    have hcommit' : (afterTransfer cmd s u).writeCommit = .perByte := by rw [hu]; exact hcommit
    have hstore : (afterTransfer cmd s u).storage = s.storage.write (dataOffset s) (conc cmd) := by rw [hu]; rfl
    refine ⟨?_, fun j hj => ?_⟩
    · rw [receivedByte_perByte _ _ hcommit', sectorByte, haddr, hstore]
      exact Memory.read_write_same _ _ _ hwf
    · rw [receivedByte_perByte _ _ hcommit', receivedByte_perByte _ _ hcommit, sectorByte, haddr, hstore]
      exact Memory.read_write_other _ _ _ _ (by simpa [dataOffset] using hj)
  | buffered _ _ _ hcommit _ hi hu =>
    exact receivedByte_of_buffer (conc cmd) s _ hcommit hi (by rw [hu]; rfl) (by rw [hu]; rfl)
  | committed _ _ _ hlast hi hcommits =>
    obtain ⟨-, hu⟩ := (commitBuffer_eq_next _ _ _).1 hcommits
    exact receivedByte_of_buffer (conc cmd) s _ (by simp [hlast]) hi (by rw [hu]; rfl) (by rw [hu]; rfl)
  | ended hp =>
    rw [hp] at hmoves
    contradiction

/-- After a step of a write that stored nothing, the data is where it was. -/
theorem receivedByte_of_kept (cmd : Tri) (s : State) (haddr : nextAddress cmd s = s.address) :
    receivedByte (afterTransfer cmd s s) = receivedByte s ∧ sectorByte (afterTransfer cmd s s) = sectorByte s := by
  have hsector : sectorByte (afterTransfer cmd s s) = sectorByte s := by
    funext j
    exact congrArg (fun a => s.storage.read (sectorBase a + j)) haddr
  refine ⟨?_, hsector⟩
  funext j
  unfold receivedByte
  rw [hsector]
  rfl

/-- A commit leaves the buffer in its sector. -/
theorem sectorByte_of_commitBuffer (s u : State) (n : BitVec 16) (hwf : s.storage.wf = true)
    (hcommits : commitBuffer s (sectorBase n) = .next u) (j : Nat) (hj : j < 128) :
    u.storage.read (sectorBase n + j) = s.wbuf[j]?.getD 0x00#8 := by
  obtain ⟨hbase, rfl⟩ := (commitBuffer_eq_next _ _ _).1 hcommits
  rw [← Memory.read_writeRun_buffer s.storage (sectorBase n) s.wbuf j hj hbase hwf]
  rfl

/-- A write that goes on keeps the meaning of the checksum: the address bytes at step 3, then each data byte (R175). -/
theorem write_checksum_afterTransfer (cmd : Tri) (s u : State) (k : BitVec 8) (h : CardInv s) (hframe : FrameInv s)
    (hon : s.poweredOn = true) (hp : s.pstate = PState.write k) (hwork : storeWork cmd s = .next u) (hlo : 3 ≤ k.toNat)
    (hhi : k.toNat ≤ 131) (hvalid : nextAddress cmd s ≠ poison) :
    nextChecksum cmd s = addressMsb (nextAddress cmd s) ^^^ addressLsb (nextAddress cmd s) ^^^
      xorUpTo (receivedByte (afterTransfer cmd s u)) (nextCounter s).toNat := by
  obtain ⟨hk, hregs⟩ := h.writeRegs hp
  have htag : s.pstate.tag = 0b011#3 := by rw [hp]
  obtain rfl | h4 : k = 3 ∨ 4 ≤ k.toNat := by bv_omega
  · obtain ⟨ha, hc, hn⟩ := next_step3 cmd s (.inr hp)
    rw [ha] at hvalid
    rw [ha, hc, hn]
    exact checksum_of_step3 s (conc cmd) _ (hregs.msb rfl) hvalid
  · have hstep : 4 ≤ s.pstate.step.toNat := by rwa [hp]
    have hmoves : movesData s.pstate = true := by rw [hp]; exact (movesData_write k).2 ⟨h4, hhi⟩
    rw [nextAddress_later cmd s hstep] at hvalid ⊢
    have hsum := hframe.write hon htag hstep (by rw [hp]; change k.toNat ≤ 132; omega) hvalid
    obtain ⟨hat, hother⟩ := receivedByte_afterTransfer cmd s u h.store htag hmoves hvalid hwork
    have hcount := hregs.counter h4
    rw [nextChecksum_data cmd s hmoves, nextCounter_data s hmoves]
    refine checksum_of_data (by omega) hsum (fun j hj => hother j (by omega)) ?_
    rw [hat, movedByte, if_neg (by rw [htag]; decide)]

/-- A write that goes on under `AFTER_DATA` has all its data in the sector from step 132 on (R182). -/
theorem write_committed_afterTransfer (cmd : Tri) (s u : State) (k : BitVec 8) (h : CardInv s) (hframe : FrameInv s)
    (hon : s.poweredOn = true) (hp : s.pstate = PState.write k) (hwork : storeWork cmd s = .next u) (hlo : 131 ≤ k.toNat)
    (hvalid : nextAddress cmd s ≠ poison) (hcommit : s.writeCommit = .afterData) (j : Nat) (hj : j < 128) :
    sectorByte (afterTransfer cmd s u) j = receivedByte (afterTransfer cmd s u) j := by
  have htag : s.pstate.tag = 0b011#3 := by rw [hp]
  have haddr : nextAddress cmd s = s.address := nextAddress_later cmd s (by rw [hp]; change 4 ≤ k.toNat; omega)
  rw [haddr] at hvalid
  cases storeChange_of_storeWork cmd s u hwork with
  | kept hdata _ hu =>
    obtain ⟨hreceived, hsector⟩ := receivedByte_of_kept cmd s haddr
    have hquiet : ¬movesData s.pstate = true := fun hmoves => hvalid (hdata htag hmoves)
    rw [hp, movesData_write] at hquiet
    rw [hu, hreceived, hsector]
    exact hframe.committed hon htag (by rw [hp]; change 132 ≤ k.toNat; omega) hvalid hcommit j hj
  | stored _ _ _ hc => exact absurd (hcommit.symm.trans hc) (by decide)
  | buffered _ hmoves _ _ hlast =>
    rw [hp, movesData_write] at hmoves
    exact absurd ⟨hcommit, by rw [hp]; change k.toNat = 131; omega⟩ hlast
  | committed _ _ _ hlast hi hcommits =>
    have hsector := sectorByte_of_commitBuffer (buffered (conc cmd) s) u _ h.store hcommits j hj
    obtain ⟨-, hu⟩ := (commitBuffer_eq_next _ _ _).1 hcommits
    rw [receivedByte_buffered _ j (by rw [hu]; simp [afterTransfer, buffered, hcommit]), sectorByte,
      show (afterTransfer cmd s u).address = s.address from haddr]
    refine hsector.trans ?_
    rw [hu]
    rfl
  | ended _ hends => exact absurd (hcommit.symm.trans hends.1) (by decide)

/-! ### Every step keeps it -/

/-- A powered TRANSFER keeps the frame's invariant. -/
theorem frameInv_afterTransfer (cmd : Tri) (s u : State) (h : CardInv s) (hframe : FrameInv s) (hon : s.poweredOn = true)
    (hwork : storeWork cmd s = .next u) : FrameInv (afterTransfer cmd s u) := by
  have hother : ∀ q : PState, (afterTransfer cmd s u).pstate = q → q.tag ≠ 0b010#3 → q.tag ≠ 0b011#3 →
      FrameInv (afterTransfer cmd s u) := by
    rintro q rfl hread hwrite
    exact frameInv_of_other hread hwrite
  have hnext : (afterTransfer cmd s u).pstate = nextPState cmd s.pstate s.address := rfl
  obtain hp | hp | ⟨k, hk, hp⟩ | ⟨k, hk, hp⟩ | ⟨k, hk, hp⟩ := (legal_iff _).1 h.legal
  all_goals rw [hp] at hnext
  · rw [nextPState_idle] at hnext
    split_ifs at hnext
    · exact hother _ hnext (by decide) (by decide)
    · exact hother _ hnext (by decide) (by decide)
  · rw [nextPState_awaitCmd] at hnext
    split_ifs at hnext
    · exact frameInv_of_read hnext fun h4 => absurd h4 (by decide)
    · exact frameInv_of_write hnext (fun h4 => absurd h4 (by decide)) fun h132 => absurd h132 (by decide)
    · exact hother _ hnext (by decide) (by decide)
    · exact hother _ hnext (by decide) (by decide)
  · rw [nextPState_read] at hnext
    split_ifs at hnext with hends
    · exact hother _ hnext (by decide) (by decide)
    · obtain rfl := storeWork_of_not_write cmd s u (by rw [hp]; simp) hwork
      exact frameInv_afterTransfer_read cmd u k h hframe hon hp hnext
  · rw [nextPState_write] at hnext
    split_ifs at hnext with hends
    · exact hother _ hnext (by decide) (by decide)
    · have hsucc : (k + 1).toNat = k.toNat + 1 := by bv_omega
      obtain ⟨-, -, hcommit, -⟩ := afterTransfer_keeps cmd s u hwork
      refine frameInv_of_write hnext (fun h4 h132 hvalid => ?_) fun h132 hvalid hafter => ?_
      · exact write_checksum_afterTransfer cmd s u k h hframe hon hp hwork (by omega) (by omega) hvalid
      · exact write_committed_afterTransfer cmd s u k h hframe hon hp hwork (by omega) hvalid (hcommit.symm.trans hafter)
  · rw [nextPState_ident] at hnext
    split_ifs at hnext with hends
    · exact hother _ hnext (by decide) (by decide)
    · exact hother _ hnext (by simp) (by simp)

/-- A view operation, which is admitted outside a frame only, keeps it. -/
theorem frameInv_execView (v : View) (s t : State) (hview : execView v s = .next t) : FrameInv t := by
  obtain ⟨hpow, -, -, -⟩ := execView_keeps v s t hview
  have hp := execView_keeps_pstate v s t hview
  obtain ⟨hadm, -, -⟩ := execView_eq_next v s t hview
  cases hon : s.poweredOn with
  | false => exact frameInv_of_off (hpow.trans hon)
  | true =>
    have hidle : s.pstate = PState.idle := by simpa [viewAdmitted, hon] using hadm
    exact frameInv_of_other (by rw [hp, hidle]; decide) (by rw [hp, hidle]; decide)

/-- Settles O44, by the kinds of steps: outside a powered TRANSFER no step leaves another frame open. -/
theorem stepKeepsFrameInv : Obligations.StepKeepsFrameInv := by
  intro s t h hframe hstep
  cases answered_of_step s t hstep with
  | nothing _ ht => rwa [ht]
  | powerOn rest _ hexec =>
    obtain ⟨-, rfl⟩ | ⟨-, rfl⟩ := (exec_powerOn_eq_next _ t).1 hexec
    · exact (hframe.setPending rest).setResponse _
    · exact frameInv_of_other (by simp) (by simp)
  | powerOff rest _ hexec =>
    obtain ⟨-, rfl⟩ | ⟨-, rfl⟩ := (exec_powerOff_eq_next _ t).1 hexec
    · exact (hframe.setPending rest).setResponse _
    · exact frameInv_of_off rfl
  | unpowered w rest _ _ _ ht => exact ht ▸ (hframe.setPending rest).setResponse _
  | powered w rest u _ _ hon _ hwork ht =>
    exact ht ▸ frameInv_afterTransfer _ _ u (h.setPending rest) (hframe.setPending rest) hon hwork
  | view v rest _ hview => exact frameInv_execView v _ t hview

/-! ### What follows at the end of a read and of a write -/

/-- A TRANSFER on a powered card that answers has the effect of a TRANSFER. -/
theorem step_transfer_eq_afterTransfer (s t : State) (w : OpWord) (hon : s.poweredOn = true) (hnext : nextIsTransfer s w)
    (h : step s = .next t) :
    ∃ rest u, storeWork (triField w) (s.setPending rest) = .next u ∧
      t = afterTransfer (triField w) (s.setPending rest) u := by
  obtain ⟨rest, i, hrow, hexec⟩ := step_transfer_powered_eq_next s t w hon hnext h
  rw [exec_eq_transferEffect (triField w) i (s.setPending rest) hon hrow] at hexec
  exact ⟨rest, (transferEffect_eq_next _ _ _).1 hexec⟩

/-- Settles O45: step 136 answers the running checksum, and all 128 bytes have moved. -/
theorem readChecksumCoversTheSector : Obligations.ReadChecksumCoversTheSector := by
  intro s t w h hframe hon hp hnext hstep
  obtain ⟨rest, u, -, rfl⟩ := step_transfer_eq_afterTransfer s t w hon hnext hstep
  obtain ⟨-, hregs⟩ := h.readRegs hp
  have hvalid : s.address ≠ poison := ne_poison_of_le_maxSector (hregs.sector (by decide))
  have hsum := hframe.read hon (by rw [hp]) (by rw [hp]; decide) hvalid
  rw [show s.byteCounter.toNat = 128 from hregs.counter (by decide)] at hsum
  have hanswer : answerByte (s.setPending rest) = .byte s.checksum := by
    rw [answerByte, State.setPending_pstate, hp]
    rfl
  change some (Response.transfer (nextPState (triField w) s.pstate s.address != PState.idle) _) = _
  rw [hanswer, hsum, hp]
  rfl

/-- Folding a byte into a checksum clears it exactly if the byte is the checksum. -/
theorem if_xor_ne_zero (c x bad good : Byte) :
    (if c ^^^ x ≠ 0x00#8 then bad else good) = if x = c then good else bad := by
  have hclear : c ^^^ x = 0x00#8 ↔ x = c := BitVec.xor_eq_zero_iff.trans eq_comm
  simp only [ne_eq, ite_not, hclear]

/-- Settles O46: at step 132 the running checksum is that of the data received, and the host's byte clears it exactly if it
is the same. -/
theorem writeVerdictComparesTheChecksum : Obligations.WriteVerdictComparesTheChecksum := by
  intro s t w h hframe hon hp hvalid hnext hstep
  obtain ⟨rest, u, -, rfl⟩ := step_transfer_eq_afterTransfer s t w hon hnext hstep
  obtain ⟨-, hregs⟩ := h.writeRegs hp
  have hsum := hframe.write hon (by rw [hp]) (by rw [hp]; decide) (by rw [hp]; decide) hvalid
  rw [show s.byteCounter.toNat = 128 from hregs.counter (by decide)] at hsum
  have haddr : nextAddress (triField w) (s.setPending rest) = s.address :=
    nextAddress_later _ (s.setPending rest) (by rw [State.setPending_pstate, hp]; decide)
  have hchecksum : nextChecksum (triField w) (s.setPending rest) = s.checksum ^^^ conc (triField w) := by
    rw [nextChecksum, State.setPending_pstate, hp]
    rfl
  change verdict (nextAddress (triField w) (s.setPending rest)) (nextChecksum (triField w) (s.setPending rest)) = _
  rw [haddr, hchecksum, verdict_of_ne_poison _ _ hvalid, hsum]
  exact if_xor_ne_zero _ _ stBadChecksum stGood

/-! ### What changes the store -/

/-- A view operation writes its byte, or none (20_memory.md R64). -/
theorem storage_of_execView (v : View) (s t : State) (h : execView v s = .next t) :
    t.storage = s.storage ∨
      (∃ n i b, v = .writeSector n i b ∧ t.storage = s.storage.write (viewOffset v) b) ∨
      ∃ n j b, v = .writeBlock n j b ∧ t.storage = s.storage.write (viewOffset v) b := by
  have hread : ∀ k, viewRead k s = .next t → t.storage = s.storage := by
    intro k hk
    obtain ⟨-, ht⟩ := (memRead_eq_next _ _ _ _).1 hk
    rw [← Host.Outcome.next.inj ht]
    rfl
  have hwrite : ∀ k b, viewWrite k b s = .next t → t.storage = s.storage.write k b := by
    intro k b hk
    obtain ⟨u, hu, ht⟩ := (andThen_eq_next _ _ _).1 hk
    obtain ⟨-, rfl⟩ := (memWrite_eq_next _ _ _ _).1 hu
    rw [← Host.Outcome.next.inj ht]
    rfl
  unfold execView at h
  split at h
  · cases v with
    | readSector n i => exact .inl (hread _ h)
    | readBlock n j => exact .inl (hread _ h)
    | writeSector n i b => exact .inr (.inl ⟨n, i, b, rfl, hwrite _ b h⟩)
    | writeBlock n j b => exact .inr (.inr ⟨n, j, b, rfl, hwrite _ b h⟩)
  · contradiction

/-- A write changes the byte of its own offset alone, to the value written. -/
theorem eq_of_read_write_ne (m : Memory) (k a : Nat) (b : Byte) (hwf : m.wf = true)
    (hne : (m.write k b).read a ≠ m.read a) : a = k ∧ (m.write k b).read a = b := by
  have ha : a = k := by
    by_contra ha
    exact hne (Memory.read_write_other m k a b ha)
  exact ⟨ha, ha ▸ Memory.read_write_same m a b hwf⟩

/-- A commit changes bytes of its sector alone. -/
theorem lt_of_read_commitBuffer_ne (s u : State) (base a : Nat) (hwf : s.storage.wf = true)
    (hcommits : commitBuffer s base = .next u) (hne : u.storage.read a ≠ s.storage.read a) :
    base ≤ a ∧ a < base + 128 := by
  obtain ⟨hbase, rfl⟩ := (commitBuffer_eq_next _ _ _).1 hcommits
  by_contra hout
  exact hne (Memory.read_writeRun_buffer_outside _ _ _ a (by simp only [Config.sectorSize]; omega) hbase hwf)

/-- A powered TRANSFER changes bytes of the addressed sector alone, and only at a data step of a write, but for `AT_END`,
which does so at its last step (43_write_sector.md R177, R181). -/
theorem storage_of_storeWork (cmd : Tri) (s u : State) (a : Nat) (h : CardInv s) (hwork : storeWork cmd s = .next u)
    (hne : u.storage.read a ≠ s.storage.read a) :
    s.address ≠ poison ∧ (sectorBase s.address ≤ a ∧ a < sectorBase s.address + 128) ∧
      ((s.pstate.tag = 0b011#3 ∧ movesData s.pstate = true ∧ s.writeCommit ≠ .atEnd) ∨
        (s.pstate = PState.write 135 ∧ s.writeCommit = .atEnd)) := by
  cases storeChange_of_storeWork cmd s u hwork with
  | kept _ _ hu => exact absurd (by rw [hu]) hne
  | stored htag hmoves hvalid hcommit _ hu =>
    rw [hu] at hne
    obtain ⟨ha, -⟩ := eq_of_read_write_ne _ _ _ _ h.store hne
    obtain ⟨-, hregs⟩ := h.writeRegs (eq_write_of_tag htag)
    have hdata := hmoves
    rw [eq_write_of_tag htag, movesData_write] at hdata
    have hcount := hregs.counter hdata.1
    rw [dataOffset] at ha
    exact ⟨hvalid, by omega, .inl ⟨htag, hmoves, by simp [hcommit]⟩⟩
  | buffered _ _ _ _ _ _ hu => exact absurd (by rw [hu]; rfl) hne
  | committed htag hmoves hvalid hlast _ hcommits =>
    exact ⟨hvalid, lt_of_read_commitBuffer_ne (buffered (conc cmd) s) u _ a h.store hcommits hne,
      .inl ⟨htag, hmoves, by simp [hlast]⟩⟩
  | ended hp hends hcommits =>
    exact ⟨hends.2, lt_of_read_commitBuffer_ne s u _ a h.store hcommits hne, .inr ⟨hp, hends.1⟩⟩

/-- Settles O37, by the kinds of steps: the power operations and a TRANSFER of an unpowered card leave the store alone. -/
theorem onlyWritesAndViewsChangeTheStore : Obligations.OnlyWritesAndViewsChangeTheStore := by
  intro s t a h hstep hne
  cases answered_of_step s t hstep with
  | nothing _ ht => exact absurd (by rw [ht]) hne
  | powerOn rest _ hexec =>
    obtain ⟨-, rfl⟩ | ⟨-, rfl⟩ := (exec_powerOn_eq_next _ t).1 hexec <;> exact absurd rfl hne
  | powerOff rest _ hexec =>
    obtain ⟨-, rfl⟩ | ⟨-, rfl⟩ := (exec_powerOff_eq_next _ t).1 hexec <;> exact absurd rfl hne
  | unpowered w rest _ _ _ ht => exact absurd (by rw [ht]; rfl) hne
  | powered w rest u hpend hop hon _ hwork ht =>
    subst ht
    obtain ⟨hvalid, hin, hwhen⟩ := storage_of_storeWork _ _ u a (h.setPending rest) hwork hne
    refine .inl ⟨hon, ⟨w, by rw [hpend]; rfl, hop⟩, hvalid, hin.1, hin.2, hwhen.imp ?_ id⟩
    rintro ⟨htag, hmoves, hcommit⟩
    have hp : s.pstate = PState.write s.pstate.step := eq_write_of_tag htag
    rw [State.setPending_pstate, hp, movesData_write] at hmoves
    exact ⟨s.pstate.step, hp, hmoves.1, hmoves.2, hcommit⟩
  | view v rest hpend hview =>
    have hhead : s.pending.head? = some (.view v) := by rw [hpend]; rfl
    obtain hkept | ⟨n, i, b, rfl, hstore⟩ | ⟨n, j, b, rfl, hstore⟩ := storage_of_execView v _ t hview
    · exact absurd (by rw [hkept]; rfl) hne
    all_goals
      rw [hstore] at hne ⊢
      obtain ⟨ha, hb⟩ := eq_of_read_write_ne _ _ _ _ h.store hne
    · exact .inr (.inl ⟨n, i, b, hhead, ha, hb⟩)
    · exact .inr (.inr ⟨n, j, b, hhead, ha, hb⟩)

end Sys2Proof.Machine

/-!
The response byte of a TRANSFER (40_power_and_transfer.md R106), the host's storage port (20_memory.md R64), and a card made
from a caller's array (70_reset_and_hazards.md R270).
-/

namespace Sys2Proof.Machine

/-! ### The response byte -/

/-- In a sub-sequence the next protocol state does not depend on the input (R106). -/
theorem nextPState_congr (x y : Tri) (p : PState) (a : BitVec 16) (hidle : p ≠ PState.idle)
    (hawait : p ≠ PState.awaitCmd) : nextPState x p a = nextPState y p a := by
  simp only [nextPState, if_neg hidle, if_neg hawait]

/-- Settles O33: the response byte is `answerByte`, in which no input stands, or `Z` on an unpowered card. -/
theorem responseByteIgnoresItsOwnInput : Obligations.ResponseByteIgnoresItsOwnInput := by
  intro s t u w v rest hw hv hstep hstep'
  have hnext : nextIsTransfer (s.setPending (.op w :: rest)) w := ⟨rfl, hw⟩
  have hnext' : nextIsTransfer (s.setPending (.op v :: rest)) v := ⟨rfl, hv⟩
  cases hon : s.poweredOn with
  | false =>
    obtain ⟨_, rfl⟩ := step_transfer_unpowered_eq_next (s.setPending (.op w :: rest)) t w hon hnext hstep
    obtain ⟨_, rfl⟩ := step_transfer_unpowered_eq_next (s.setPending (.op v :: rest)) u v hon hnext' hstep'
    exact ⟨false, false, .z, rfl, rfl, fun _ _ => ⟨rfl, rfl⟩⟩
  | true =>
    obtain ⟨_, _, -, rfl⟩ := step_transfer_eq_afterTransfer (s.setPending (.op w :: rest)) t w hon hnext hstep
    obtain ⟨_, _, -, rfl⟩ := step_transfer_eq_afterTransfer (s.setPending (.op v :: rest)) u v hon hnext' hstep'
    refine ⟨_, _, answerByte s, rfl, rfl, fun hidle hawait => ?_⟩
    have hp := nextPState_congr (triField w) (triField v) s.pstate s.address hidle hawait
    exact ⟨congrArg (· != PState.idle) hp, hp⟩

/-! ### The storage port -/

/-- Settles O39: each view from what it answers outside an open frame. -/
theorem viewsReachTheirByteOrAreRefused : Obligations.ViewsReachTheirByteOrAreRefused := by
  refine fun s => ⟨fun hadm => ?admitted, fun hopen v => execView_refused v s hopen⟩
  case admitted =>
    have hclosed : ¬frameOpen s := by
      rintro ⟨hon, hp⟩
      obtain hoff | hidle := hadm
      · exact absurd (hoff.symm.trans hon) (by decide)
      · exact hp hidle
    have hwrites : s.storage.wf = true → ∀ (k : Nat) (v : Byte), k < Config.cardSize →
        (s.storage.write k v).wf = true ∧ (s.storage.write k v).read k = v ∧
          ∀ a, a ≠ k → (s.storage.write k v).read a = s.storage.read a := fun hwf k v hk =>
      ⟨Memory.write_wf _ k v hk hwf, Memory.read_write_same _ k v hwf, fun a => Memory.read_write_other _ k a v⟩
    refine ⟨fun n i => execView_readSector n i s hclosed, fun b j => execView_readBlock b j s hclosed,
      fun hwf n i v => ⟨_, execView_writeSector n i v s hclosed, ?_⟩,
      fun hwf b j v => ⟨_, execView_writeBlock b j v s hclosed, ?_⟩⟩
    · exact hwrites hwf _ v (viewOffset_lt_cardSize (.writeSector n i v))
    · exact hwrites hwf _ v (viewOffset_lt_cardSize (.writeBlock b j v))

/-! ### Creation -/

/-- Settles O40: the store is the array laid at offset 0. -/
theorem creationCopiesTheArray : Obligations.CreationCopiesTheArray := by
  refine fun commit data => ⟨fun hlen => if_neg hlen, fun hlen => ⟨_, if_pos hlen, rfl, rfl, ?wf, fun a ha => ?read⟩⟩
  case wf => exact Memory.ofBytes_wf 0 data (by rw [hlen]; decide)
  case read =>
    have hread := Memory.read_ofBytes 0 data a
    rw [Nat.zero_add, List.getElem?_eq_getElem ha, Option.getD_some] at hread
    exact hread

end Sys2Proof.Machine

/-!
The three values of `WRITE_COMMIT` against each other (43_write_sector.md R182). The byte that a card holds at an offset is the
one in its store, or the one that waits for that offset in its buffer. What a TRANSFER makes of the bytes a card holds is the
same under all three values, so cards that differ in `WRITE_COMMIT` alone go on holding the same bytes.
-/

namespace Sys2Proof.Machine

/-! ### The bytes a card holds -/

open Classical in
/-- The byte a card holds at an offset: the one that waits for it in the buffer, or else the store's (R182). -/
noncomputable def heldByte (s : State) (a : Nat) : Byte :=
  if dataWaits s ∧ arrived s a then s.wbuf[a - sectorBase s.address]?.getD 0x00#8 else s.storage.read a

theorem heldByte_waiting {s : State} {a : Nat} (hwaits : dataWaits s) (harrived : arrived s a) :
    heldByte s a = s.wbuf[a - sectorBase s.address]?.getD 0x00#8 := if_pos ⟨hwaits, harrived⟩

theorem heldByte_settled {s : State} {a : Nat} (h : ¬(dataWaits s ∧ arrived s a)) :
    heldByte s a = s.storage.read a := if_neg h

theorem heldByte_of_not_waits {s : State} (h : ¬dataWaits s) (a : Nat) : heldByte s a = s.storage.read a :=
  heldByte_settled fun hwaits => h hwaits.1

/-- Data waits in `WRITE(k)` only, and there by `WRITE_COMMIT` (R182). -/
theorem dataWaits_write_iff {s : State} {k : BitVec 8} (hp : s.pstate = PState.write k) :
    dataWaits s ↔ s.poweredOn = true ∧ 4 ≤ k.toNat ∧ s.address ≠ poison ∧
      ((s.writeCommit = .afterData ∧ k.toNat ≤ 131) ∨ (s.writeCommit = .atEnd ∧ k.toNat ≤ 135)) := by
  simp [dataWaits, hp]

/-- A data byte that has arrived waits, but under `PER_BYTE`, and past the last one under `AFTER_DATA`. -/
theorem dataWaits_of_arrived {s : State} {k : BitVec 8} (hp : s.pstate = PState.write k) (hon : s.poweredOn = true)
    (hvalid : s.address ≠ poison) (hlo : 4 ≤ k.toNat) (hhi : k.toNat ≤ 132) (hcommit : s.writeCommit ≠ .perByte)
    (hafter : s.writeCommit = .afterData → k.toNat ≤ 131) : dataWaits s := by
  refine (dataWaits_write_iff hp).2 ⟨hon, hlo, hvalid, ?_⟩
  cases hc : s.writeCommit with
  | perByte => exact absurd hc hcommit
  | afterData => exact .inl ⟨rfl, hafter hc⟩
  | atEnd => exact .inr ⟨rfl, by omega⟩

theorem not_dataWaits_of_tag {s : State} (h : s.pstate.tag ≠ 0b011#3) : ¬dataWaits s := fun hwaits => h hwaits.2.1

theorem not_dataWaits_of_perByte {s : State} (h : s.writeCommit = .perByte) : ¬dataWaits s := by
  simp [dataWaits, h]

theorem not_dataWaits_of_off {s : State} (h : s.poweredOn = false) : ¬dataWaits s := by
  simp [dataWaits, h]

theorem not_dataWaits_of_poison {s : State} (h : s.address = poison) : ¬dataWaits s := by
  simp [dataWaits, h]

/-- Data waits during an open frame only. -/
theorem frameOpen_of_dataWaits {s : State} (h : dataWaits s) : frameOpen s := by
  obtain ⟨hon, htag, -⟩ := h
  exact ⟨hon, fun hp => absurd (congrArg PState.tag hp) (by rw [htag]; decide)⟩

/-! ### What a TRANSFER makes of them -/

/-- Where the offsets of the arrived data bytes lie, and whether data waits, is as before: so are the bytes held. -/
theorem heldByte_congr {s t : State} (hstore : t.storage = s.storage) (hbuf : t.wbuf = s.wbuf)
    (haddr : t.address = s.address) (hcount : t.byteCounter = s.byteCounter) (hwaits : dataWaits t ↔ dataWaits s) :
    heldByte t = heldByte s := by
  funext a
  unfold heldByte arrived
  rw [hstore, hbuf, haddr, hcount, hwaits]

/-- Before any data byte has arrived, a card holds its store. -/
theorem heldByte_of_counter_zero {s : State} (h : s.byteCounter = 0) (a : Nat) : heldByte s a = s.storage.read a := by
  refine heldByte_settled ?_
  rintro ⟨-, hlo, hhi⟩
  rw [h] at hhi
  exact absurd hhi (Nat.not_lt.2 hlo)

/-- `WRITE(k)` moves on to `WRITE(k + 1)`, but at its end. -/
theorem pstate_afterTransfer_write (cmd : Tri) (s u : State) (k : BitVec 8) (hp : s.pstate = PState.write k) :
    (afterTransfer cmd s u).pstate = if k = 135 then PState.idle else PState.write (k + 1) := by
  change nextPState cmd s.pstate s.address = _
  rw [hp, nextPState_write, if_congr (frameEnds_write k _) rfl rfl]

/-- A step of a write at which nothing is stored leaves the bytes held. -/
theorem heldByte_afterTransfer_kept (cmd : Tri) (s : State) (k : BitVec 8) (hk : k.toNat ≤ 135)
    (hp : s.pstate = PState.write k) (hdata : movesData s.pstate = true → s.address = poison)
    (hend : s.pstate = PState.write 135 → ¬(s.writeCommit = .atEnd ∧ s.address ≠ poison)) (a : Nat) :
    heldByte (afterTransfer cmd s s) a = heldByte s a := by
  have hnext := pstate_afterTransfer_write cmd s s k hp
  have hwaits := dataWaits_write_iff hp
  have hstored (hs : ¬dataWaits s) (ht : heldByte (afterTransfer cmd s s) a = s.storage.read a) :
      heldByte (afterTransfer cmd s s) a = heldByte s a := ht.trans (heldByte_of_not_waits hs a).symm
  obtain hearly | rfl | ⟨hlo, hhi⟩ | ⟨hlo, hhi⟩ | rfl :
      k.toNat ≤ 2 ∨ k = 3 ∨ (4 ≤ k.toNat ∧ k.toNat ≤ 131) ∨ (132 ≤ k.toNat ∧ k.toNat ≤ 134) ∨ k = 135 := by bv_omega
  case inr.inr.inr.inr =>
    have hs : ¬dataWaits s := by
      rw [hwaits]
      rintro ⟨-, -, hvalid, ⟨-, hafter⟩ | ⟨hatEnd, -⟩⟩
      · exact absurd hafter (by decide)
      · exact hend hp ⟨hatEnd, hvalid⟩
    rw [if_pos rfl] at hnext
    exact hstored hs (heldByte_of_not_waits (not_dataWaits_of_tag (by rw [hnext]; decide)) a)
  all_goals
    rw [if_neg (by bv_omega)] at hnext
    have hwaits' := dataWaits_write_iff hnext
  · have hs : ¬dataWaits s := by rw [hwaits]; omega
    have ht : ¬dataWaits (afterTransfer cmd s s) := by rw [hwaits']; bv_omega
    exact hstored hs (heldByte_of_not_waits ht a)
  · have hs : ¬dataWaits s := by rw [hwaits]; simp
    obtain ⟨-, -, hcount⟩ := next_step3 cmd s (.inr hp)
    exact hstored hs (heldByte_of_counter_zero hcount a)
  · have hpoison : s.address = poison := hdata (by rw [hp]; exact (movesData_write k).2 ⟨hlo, hhi⟩)
    have hpoison' : nextAddress cmd s = poison := (nextAddress_later cmd s (by rwa [hp])).trans hpoison
    exact hstored (not_dataWaits_of_poison hpoison) (heldByte_of_not_waits (not_dataWaits_of_poison hpoison') a)
  · have hstep : 4 ≤ s.pstate.step.toNat := by rw [hp]; change 4 ≤ k.toNat; omega
    have hquiet : ¬movesData s.pstate = true := by rw [hp, movesData_write]; omega
    have haddr : (afterTransfer cmd s s).address = s.address := nextAddress_later cmd s hstep
    have hcount : (afterTransfer cmd s s).byteCounter = s.byteCounter := by
      change nextCounter s = _
      rw [nextCounter_later s hstep, if_neg hquiet]
    have hsucc : (k + 1).toNat = k.toNat + 1 := by bv_omega
    have hsame : dataWaits (afterTransfer cmd s s) ↔ dataWaits s := by
      rw [hwaits, hwaits', haddr, hsucc]
      refine and_congr_right fun _ => and_congr (by omega) (and_congr_right fun _ => or_congr ?_ ?_)
      · exact and_congr_right fun _ => by omega
      · exact and_congr_right fun _ => by omega
    have hkept : heldByte (afterTransfer cmd s s) = heldByte s := heldByte_congr rfl rfl haddr hcount hsame
    rw [hkept]

/-- What an offset reads as after a write of one byte. -/
theorem Memory.read_write (m : Memory) (k a : Nat) (b : Byte) (hwf : m.wf = true) :
    (m.write k b).read a = if a = k then b else m.read a := by
  split_ifs with ha
  · rw [ha, Memory.read_write_same m k b hwf]
  · exact Memory.read_write_other m k a b ha

/-- A card that holds the arrived bytes and one more, as the buffer has them, and its store elsewhere. -/
theorem heldByte_of_buffer (b : Byte) (s t : State) (hs : dataWaits s) (hi : s.byteCounter.toNat < Config.sectorSize)
    (hin : ∀ j ≤ s.byteCounter.toNat, heldByte t (sectorBase s.address + j) = (buffered b s).wbuf[j]?.getD 0x00#8)
    (hout : ∀ a, (a < sectorBase s.address ∨ dataOffset s < a) → heldByte t a = s.storage.read a) (a : Nat) :
    heldByte t a = if a = dataOffset s then b else heldByte s a := by
  split_ifs with ha
  · rw [ha, dataOffset, hin _ (Nat.le_refl _), buffered_wbuf_same b s hi, Option.getD_some]
  · by_cases harrived : arrived s a
    · obtain ⟨hlo, hhi⟩ := harrived
      obtain ⟨j, rfl⟩ := Nat.exists_eq_add_of_le hlo
      rw [hin j (by omega), buffered_wbuf_other b s j (by omega), heldByte_waiting hs ⟨hlo, hhi⟩, Nat.add_sub_cancel_left]
    · have hfar : a < sectorBase s.address ∨ dataOffset s < a := by
        simp only [arrived, dataOffset] at harrived ha ⊢
        omega
      rw [hout a hfar, heldByte_settled fun hwaits => harrived hwaits.2]

/-- The data byte of a write on a valid sector is held at its offset from then on, whatever `WRITE_COMMIT` (R177, R182). -/
theorem heldByte_afterTransfer_data (cmd : Tri) (s u : State) (k : BitVec 8) (h : CardInv s) (hon : s.poweredOn = true)
    (hp : s.pstate = PState.write k) (hlo : 4 ≤ k.toNat) (hhi : k.toNat ≤ 131) (hvalid : s.address ≠ poison)
    (hwork : storeWork cmd s = .next u) (a : Nat) :
    heldByte (afterTransfer cmd s u) a = if a = dataOffset s then conc cmd else heldByte s a := by
  have hmoves : movesData s.pstate = true := by rw [hp]; exact (movesData_write k).2 ⟨hlo, hhi⟩
  have hnext := pstate_afterTransfer_write cmd s u k hp
  rw [if_neg (by bv_omega)] at hnext
  obtain ⟨-, hregs⟩ := h.writeRegs hp
  have hcount := hregs.counter hlo
  have haddr : (afterTransfer cmd s u).address = s.address := nextAddress_data cmd s hmoves
  have hcount' : (afterTransfer cmd s u).byteCounter.toNat = s.byteCounter.toNat + 1 := by
    change (nextCounter s).toNat = _
    rw [nextCounter_data s hmoves]
    bv_omega
  obtain ⟨hpow, -, hcommit', -⟩ := afterTransfer_keeps cmd s u hwork
  have hwaits (hc : s.writeCommit ≠ .perByte) : dataWaits s :=
    dataWaits_of_arrived hp hon hvalid hlo (by omega) hc fun _ => hhi
  cases storeChange_of_storeWork cmd s u hwork with
  | kept hdata => exact absurd (hdata (by rw [hp]) hmoves) hvalid
  | stored _ _ _ hcommit _ hu =>
    rw [heldByte_of_not_waits (not_dataWaits_of_perByte (hcommit'.trans hcommit)),
      heldByte_of_not_waits (not_dataWaits_of_perByte hcommit), hu]
    exact Memory.read_write s.storage _ a _ h.store
  | buffered _ _ _ hcommit hlast hi hu =>
    have ht : dataWaits (afterTransfer cmd s u) := by
      refine dataWaits_of_arrived hnext (hpow.trans hon) (by rwa [haddr]) (by bv_omega) (by bv_omega)
        (by rwa [hcommit']) fun hafter => ?_
      have hk : s.pstate.step.toNat ≠ 131 := fun hk => hlast ⟨hcommit' ▸ hafter, hk⟩
      rw [hp] at hk
      bv_omega
    refine heldByte_of_buffer (conc cmd) s _ (hwaits hcommit) hi (fun j hj => ?_) (fun a ha => ?_) a
    · rw [heldByte_waiting ht ⟨by rw [haddr]; omega, by rw [haddr, hcount']; omega⟩, haddr, Nat.add_sub_cancel_left, hu]
      rfl
    · rw [heldByte_settled, hu]
      · rfl
      · rintro ⟨-, harrived⟩
        simp only [arrived, haddr, hcount', dataOffset] at harrived ha
        omega
  | committed _ _ _ hlast hi hcommits =>
    have hk : k.toNat = 131 := by simpa [hp] using hlast.2
    have ht : ¬dataWaits (afterTransfer cmd s u) := by
      rw [dataWaits_write_iff hnext, hcommit', hlast.1]
      rintro ⟨-, -, -, ⟨-, hlate⟩ | ⟨hc, -⟩⟩
      · bv_omega
      · contradiction
    refine heldByte_of_buffer (conc cmd) s _ (hwaits (by simp [hlast])) hi (fun j hj => ?_) (fun a ha => ?_) a
    · rw [heldByte_of_not_waits ht]
      exact sectorByte_of_commitBuffer (buffered (conc cmd) s) u _ h.store hcommits j (by omega)
    · rw [heldByte_of_not_waits ht]
      obtain ⟨hbase, rfl⟩ := (commitBuffer_eq_next _ _ _).1 hcommits
      refine Memory.read_writeRun_buffer_outside _ _ _ a ?_ hbase h.store
      simp only [dataOffset, Config.sectorSize] at ha ⊢
      omega
  | ended hend =>
    rw [hend] at hmoves
    contradiction

/-- The commit at the end of a write leaves the bytes held, which are in the store from then on (R181, R182). -/
theorem heldByte_afterTransfer_end (cmd : Tri) (s u : State) (h : CardInv s) (hon : s.poweredOn = true)
    (hp : s.pstate = PState.write 135) (hends : s.writeCommit = .atEnd ∧ s.address ≠ poison)
    (hcommits : commitBuffer s (sectorBase s.address) = .next u) (a : Nat) :
    heldByte (afterTransfer cmd s u) a = heldByte s a := by
  have hnext := pstate_afterTransfer_write cmd s u 135 hp
  rw [if_pos rfl] at hnext
  have hwaits : dataWaits s := (dataWaits_write_iff hp).2 ⟨hon, by decide, hends.2, .inr ⟨hends.1, by decide⟩⟩
  obtain ⟨-, hregs⟩ := h.writeRegs hp
  have hcount : s.byteCounter.toNat = 128 := hregs.counter (by decide)
  rw [heldByte_of_not_waits (not_dataWaits_of_tag (by rw [hnext]; decide))]
  change u.storage.read a = _
  by_cases harrived : arrived s a
  · rw [heldByte_waiting hwaits harrived]
    obtain ⟨hlo, hhi⟩ := harrived
    obtain ⟨j, rfl⟩ := Nat.exists_eq_add_of_le hlo
    rw [sectorByte_of_commitBuffer s u _ h.store hcommits j (by omega), Nat.add_sub_cancel_left]
  · rw [heldByte_settled fun hboth => harrived hboth.2]
    obtain ⟨hbase, rfl⟩ := (commitBuffer_eq_next _ _ _).1 hcommits
    refine Memory.read_writeRun_buffer_outside _ _ _ a ?_ hbase h.store
    simp only [arrived, hcount, Config.sectorSize] at harrived ⊢
    omega

/-- A write begins at `WRITE(0)`. -/
theorem nextPState_of_not_write (cmd : Tri) (p : PState) (a : BitVec 16) (h : p.tag ≠ 0b011#3) :
    (nextPState cmd p a).tag ≠ 0b011#3 ∨ nextPState cmd p a = PState.write 0 := by
  unfold nextPState
  split_ifs
  · exact .inl (by decide)
  · exact .inl (by decide)
  · exact .inl (by decide)
  · exact .inr rfl
  · exact .inl (by decide)
  · exact .inl (by decide)
  · exact .inl (by decide)
  · exact .inl h

/-- The data byte of a write on a valid sector moves to offset `a`. -/
def storesAt (s : State) (a : Nat) : Bool :=
  s.pstate.tag == 0b011#3 && movesData s.pstate && s.address != poison && a == dataOffset s

theorem storesAt_iff (s : State) (a : Nat) :
    storesAt s a = true ↔
      s.pstate.tag = 0b011#3 ∧ movesData s.pstate = true ∧ s.address ≠ poison ∧ a = dataOffset s := by
  simp [storesAt, and_assoc]

/-- What a powered TRANSFER makes of the bytes a card holds; `WRITE_COMMIT` does not stand in it (R182). -/
theorem heldByte_afterTransfer (cmd : Tri) (s u : State) (h : CardInv s) (hon : s.poweredOn = true)
    (hwork : storeWork cmd s = .next u) (a : Nat) :
    heldByte (afterTransfer cmd s u) a = if storesAt s a then conc cmd else heldByte s a := by
  by_cases htag : s.pstate.tag = 0b011#3
  · have hp := eq_write_of_tag htag
    obtain ⟨hk, -⟩ := h.writeRegs hp
    by_cases hstores : movesData s.pstate = true ∧ s.address ≠ poison
    · obtain ⟨hmoves, hvalid⟩ := hstores
      have hrange := hmoves
      rw [hp, movesData_write] at hrange
      rw [heldByte_afterTransfer_data cmd s u _ h hon hp hrange.1 hrange.2 hvalid hwork a]
      simp [storesAt, htag, hmoves, hvalid]
    · have hnot : ¬storesAt s a = true := by
        rw [storesAt_iff]
        rintro ⟨-, hmoves, hvalid, -⟩
        exact hstores ⟨hmoves, hvalid⟩
      rw [if_neg hnot]
      cases storeChange_of_storeWork cmd s u hwork with
      | kept hdata hend hu => exact hu ▸ heldByte_afterTransfer_kept cmd s _ hk hp (hdata htag) hend a
      | stored _ hmoves hvalid | buffered _ hmoves hvalid | committed _ hmoves hvalid =>
        exact absurd ⟨hmoves, hvalid⟩ hstores
      | ended hend hends hcommits => exact heldByte_afterTransfer_end cmd s u h hon hend hends hcommits a
  · obtain rfl := storeWork_of_not_write cmd s u htag hwork
    rw [if_neg fun hat => htag ((storesAt_iff u a).1 hat).1, heldByte_of_not_waits (not_dataWaits_of_tag htag)]
    refine heldByte_of_not_waits ?_ a
    obtain hother | hopens := nextPState_of_not_write cmd u.pstate u.address htag
    · exact not_dataWaits_of_tag hother
    · rw [dataWaits_write_iff (s := afterTransfer cmd u u) hopens]
      simp

/-! ### Two cards -/

/-- Every register, the queue and the outputs agree. -/
structure SameRegs (s t : State) : Prop where
  poweredOn : s.poweredOn = t.poweredOn
  flag : s.flag = t.flag
  pstate : s.pstate = t.pstate
  address : s.address = t.address
  checksum : s.checksum = t.checksum
  byteCounter : s.byteCounter = t.byteCounter
  pending : s.pending = t.pending
  response : s.response = t.response

/-- Two cards agree but for the data that waits exactly if they agree in the registers and hold the same bytes. -/
theorem sameButCommit_iff (s t : State) :
    SameButCommit s t ↔ s.writeCommit = .perByte ∧ SameRegs s t ∧ ∀ a, s.storage.read a = heldByte t a := by
  constructor
  · rintro ⟨hper, hpow, hflag, hp, haddr, hsum, hcount, hpend, hresp, hwaiting, hsettled⟩
    refine ⟨hper, ⟨hpow, hflag, hp, haddr, hsum, hcount, hpend, hresp⟩, fun a => ?_⟩
    by_cases h : dataWaits t ∧ arrived t a
    · rw [heldByte_waiting h.1 h.2]
      exact hwaiting h.1 a h.2
    · rw [heldByte_settled h]
      exact hsettled a h
  · rintro ⟨hper, ⟨hpow, hflag, hp, haddr, hsum, hcount, hpend, hresp⟩, hheld⟩
    refine ⟨hper, hpow, hflag, hp, haddr, hsum, hcount, hpend, hresp, fun hwaits a harrived => ?_, fun a h => ?_⟩
    · rw [hheld, heldByte_waiting hwaits harrived]
    · rw [hheld, heldByte_settled h]

/-- The queue and the outputs do not stand in what two cards hold. -/
theorem SameButCommit.setPending {s t : State} (h : SameButCommit s t) (rest : List Request) :
    SameButCommit (s.setPending rest) (t.setPending rest) :=
  ⟨h.perByte, h.poweredOn, h.flag, h.pstate, h.address, h.checksum, h.byteCounter, rfl, h.response, h.waiting, h.settled⟩

theorem SameButCommit.setResponse {s t : State} (h : SameButCommit s t) (r : Option Response) :
    SameButCommit (s.setResponse r) (t.setResponse r) :=
  ⟨h.perByte, h.poweredOn, h.flag, h.pstate, h.address, h.checksum, h.byteCounter, h.pending, rfl, h.waiting, h.settled⟩

/-- Cards that agree in the registers and the whole store agree where no data waits. -/
theorem sameButCommit_of_read_eq {s t : State} (hper : s.writeCommit = .perByte) (hregs : SameRegs s t)
    (hread : ∀ a, s.storage.read a = t.storage.read a) (hnot : ¬dataWaits t) : SameButCommit s t :=
  (sameButCommit_iff s t).2 ⟨hper, hregs, fun a => (hread a).trans (heldByte_of_not_waits hnot a).symm⟩

/-- While no data waits the stores agree. -/
theorem SameButCommit.read_eq {s t : State} (h : SameButCommit s t) (ht : ¬dataWaits t) (a : Nat) :
    s.storage.read a = t.storage.read a := h.settled a fun hboth => ht hboth.1

/-- Two cards that agree in the registers and, in a read, in the byte addressed, leave and answer alike. -/
theorem sameRegs_afterTransfer (cmd : Tri) (s t u v : State) (h : SameRegs s t)
    (hread : s.pstate.tag = 0b010#3 → s.storage.read (dataOffset s) = t.storage.read (dataOffset t))
    (hs : storeWork cmd s = .next u) (ht : storeWork cmd t = .next v) :
    SameRegs (afterTransfer cmd s u) (afterTransfer cmd t v) := by
  obtain ⟨hpow, hflag, hp, haddr, hsum, hcount, hpend, hresp⟩ := h
  obtain ⟨hspow, hsflag, -, hspend⟩ := afterTransfer_keeps cmd s u hs
  obtain ⟨htpow, htflag, -, htpend⟩ := afterTransfer_keeps cmd t v ht
  have hnext : nextPState cmd s.pstate s.address = nextPState cmd t.pstate t.address := by rw [hp, haddr]
  have hmoved : movedByte cmd s = movedByte cmd t := by
    unfold movedByte
    split_ifs with h1 h2 h2
    · exact hread h1
    · exact absurd (hp ▸ h1) h2
    · exact absurd (hp ▸ h2) h1
    · rfl
  have hreadAnswer (htag : s.pstate.tag = 0b010#3) (k : BitVec 8) : readAnswer k s = readAnswer k t := by
    simp only [readAnswer, haddr, hsum, hread htag]
  have hwriteAnswer (k : BitVec 8) : writeAnswer k s = writeAnswer k t := by simp only [writeAnswer, haddr, hsum]
  have hanswer : answerByte s = answerByte t := by
    rw [answerByte, answerByte, hflag, ← hp, hwriteAnswer]
    split_ifs with _ _ htag
    · rfl
    · rfl
    · rw [hreadAnswer htag]
    all_goals rfl
  constructor
  case poweredOn => rw [hspow, htpow, hpow]
  case flag => rw [hsflag, htflag, hflag]
  case pstate => exact hnext
  case address =>
    change nextAddress cmd s = nextAddress cmd t
    rw [nextAddress, nextAddress, hp, haddr]
  case checksum =>
    change nextChecksum cmd s = nextChecksum cmd t
    rw [nextChecksum, nextChecksum, hp, hsum, hmoved]
  case byteCounter =>
    change nextCounter s = nextCounter t
    rw [nextCounter, nextCounter, hp, hcount]
  case pending => rw [hspend, htpend, hpend]
  case response =>
    change some (Response.transfer (nextPState cmd s.pstate s.address != PState.idle) (answerByte s)) =
      some (.transfer (nextPState cmd t.pstate t.address != PState.idle) (answerByte t))
    rw [hnext, hanswer]

/-- A powered TRANSFER on two cards that agree. -/
theorem sameButCommit_afterTransfer (cmd : Tri) (s t u v : State) (hs : CardInv s) (ht : CardInv t)
    (h : SameButCommit s t) (hon : s.poweredOn = true) (hworks : storeWork cmd s = .next u)
    (hworkt : storeWork cmd t = .next v) : SameButCommit (afterTransfer cmd s u) (afterTransfer cmd t v) := by
  obtain ⟨hper, hregs, hheld⟩ := (sameButCommit_iff s t).1 h
  have hper' : (afterTransfer cmd s u).writeCommit = .perByte := by
    obtain ⟨-, -, hcommit, -⟩ := afterTransfer_keeps cmd s u hworks
    exact hcommit.trans hper
  have hoffset : dataOffset s = dataOffset t := by rw [dataOffset, dataOffset, hregs.address, hregs.byteCounter]
  have hstores (a : Nat) : storesAt s a = storesAt t a := by
    rw [storesAt, storesAt, hregs.pstate, hregs.address, hoffset]
  refine (sameButCommit_iff _ _).2 ⟨hper', sameRegs_afterTransfer cmd s t u v hregs (fun htag => ?_) hworks hworkt, fun a => ?_⟩
  · rw [hoffset]
    exact h.read_eq (not_dataWaits_of_tag (by rw [← hregs.pstate, htag]; decide)) _
  · calc (afterTransfer cmd s u).storage.read a
      _ = heldByte (afterTransfer cmd s u) a := (heldByte_of_not_waits (not_dataWaits_of_perByte hper') a).symm
      _ = if storesAt s a then conc cmd else heldByte s a := heldByte_afterTransfer cmd s u hs hon hworks a
      _ = if storesAt t a then conc cmd else heldByte t a := by
        rw [hstores, heldByte_of_not_waits (not_dataWaits_of_perByte hper), hheld]
      _ = heldByte (afterTransfer cmd t v) a :=
        (heldByte_afterTransfer cmd t v ht (hregs.poweredOn ▸ hon) hworkt a).symm

/-- A byte that the host writes to two cards that agree, while no data waits. -/
theorem sameButCommit_write (s t : State) (k : Nat) (b : Byte) (hs : CardInv s) (ht : CardInv t) (h : SameButCommit s t)
    (hnot : ¬dataWaits t) :
    SameButCommit (s.setStorage (s.storage.write k b)) (t.setStorage (t.storage.write k b)) := by
  obtain ⟨hper, ⟨hpow, hflag, hp, haddr, hsum, hcount, hpend, hresp⟩, -⟩ := (sameButCommit_iff s t).1 h
  refine sameButCommit_of_read_eq hper ⟨hpow, hflag, hp, haddr, hsum, hcount, hpend, hresp⟩ (fun a => ?_) hnot
  rw [State.setStorage_storage, State.setStorage_storage, Memory.read_write _ _ _ _ hs.store,
    Memory.read_write _ _ _ _ ht.store, h.read_eq hnot]

/-- A view operation on two cards that agree: it is admitted outside a frame only, where no data waits. -/
theorem sameButCommit_execView (w : View) (s t s' : State) (hs : CardInv s) (ht : CardInv t) (h : SameButCommit s t)
    (hview : execView w s = .next s') : ∃ t', execView w t = .next t' ∧ SameButCommit s' t' := by
  obtain ⟨hadm, -, -⟩ := execView_eq_next w s s' hview
  have hcloseds : ¬frameOpen s := (viewAdmitted_iff s).1 hadm
  have hclosedt : ¬frameOpen t := by rwa [frameOpen, ← h.poweredOn, ← h.pstate]
  have hnot : ¬dataWaits t := fun hwaits => hclosedt (frameOpen_of_dataWaits hwaits)
  cases w with
  | readSector n i =>
    rw [execView_readSector n i s hcloseds, h.read_eq hnot] at hview
    exact ⟨_, execView_readSector n i t hclosedt, Host.Outcome.next.inj hview ▸ h.setResponse _⟩
  | readBlock b j =>
    rw [execView_readBlock b j s hcloseds, h.read_eq hnot] at hview
    exact ⟨_, execView_readBlock b j t hclosedt, Host.Outcome.next.inj hview ▸ h.setResponse _⟩
  | writeSector n i v =>
    rw [execView_writeSector n i v s hcloseds] at hview
    exact ⟨_, execView_writeSector n i v t hclosedt,
      Host.Outcome.next.inj hview ▸ (sameButCommit_write s t _ v hs ht h hnot).setResponse none⟩
  | writeBlock b j v =>
    rw [execView_writeBlock b j v s hcloseds] at hview
    exact ⟨_, execView_writeBlock b j v t hclosedt,
      Host.Outcome.next.inj hview ▸ (sameButCommit_write s t _ v hs ht h hnot).setResponse none⟩

/-- A POWER_ON on two cards that agree: on an unpowered card no data waits, and none does in `IDLE`. -/
theorem sameButCommit_powerOn (s t s' : State) (h : SameButCommit s t) (hexec : exec .powerOn s = .next s') :
    ∃ t', exec .powerOn t = .next t' ∧ SameButCommit s' t' := by
  obtain ⟨hon, rfl⟩ | ⟨hoff, rfl⟩ := (exec_powerOn_eq_next s s').1 hexec
  · exact ⟨_, (exec_powerOn_eq_next t _).2 (.inl ⟨h.poweredOn ▸ hon, rfl⟩), h.setResponse _⟩
  · have hofft : t.poweredOn = false := h.poweredOn ▸ hoff
    refine ⟨_, (exec_powerOn_eq_next t _).2 (.inr ⟨hofft, rfl⟩), sameButCommit_of_read_eq h.perByte ?_ ?_ ?_⟩
    · exact ⟨rfl, rfl, rfl, h.address, h.checksum, h.byteCounter, h.pending, rfl⟩
    · exact h.read_eq (not_dataWaits_of_off hofft)
    · exact not_dataWaits_of_tag (by simp)

/-- A POWER_OFF on two cards that agree, while no data waits. -/
theorem sameButCommit_powerOff (s t s' : State) (h : SameButCommit s t) (hnot : ¬dataWaits t)
    (hexec : exec .powerOff s = .next s') : ∃ t', exec .powerOff t = .next t' ∧ SameButCommit s' t' := by
  obtain ⟨hoff, rfl⟩ | ⟨hon, rfl⟩ := (exec_powerOff_eq_next s s').1 hexec
  · exact ⟨_, (exec_powerOff_eq_next t _).2 (.inl ⟨h.poweredOn ▸ hoff, rfl⟩), h.setResponse _⟩
  · refine ⟨_, (exec_powerOff_eq_next t _).2 (.inr ⟨h.poweredOn ▸ hon, rfl⟩), sameButCommit_of_read_eq h.perByte ?_ ?_ ?_⟩
    · exact ⟨rfl, h.flag, h.pstate, h.address, h.checksum, h.byteCounter, h.pending, rfl⟩
    · exact h.read_eq hnot
    · exact not_dataWaits_of_off rfl

/-- Settles O48, by the kinds of steps. A powered TRANSFER makes the same of the bytes both cards hold; at every other
operation no data waits, by the hypothesis for a POWER_OFF. -/
theorem writeCommitValuesAgree : Obligations.WriteCommitValuesAgree := by
  intro s t s' hs ht h hno hstep
  cases answered_of_step s s' hstep with
  | nothing hpend hs' => exact ⟨t, step_nothing t (h.pending ▸ hpend), hs' ▸ h⟩
  | powerOn rest hpend hexec =>
    rw [step_powerOn t rest (h.pending ▸ hpend)]
    exact sameButCommit_powerOn _ _ s' (h.setPending rest) hexec
  | powerOff rest hpend hexec =>
    have hpendt : t.pending = .op powerOffWord :: rest := h.pending ▸ hpend
    have hnot : ¬dataWaits t := fun hwaits => hno ⟨hwaits, by rw [hpendt]; rfl⟩
    rw [step_powerOff t rest hpendt]
    exact sameButCommit_powerOff _ _ s' (h.setPending rest) hnot hexec
  | unpowered w rest hpend hop hoff hs' =>
    exact ⟨_, step_unpowered t w rest (h.pending ▸ hpend) hop (h.poweredOn ▸ hoff),
      hs' ▸ (h.setPending rest).setResponse _⟩
  | powered w rest u hpend hop hon hlegal hwork hs' =>
    obtain ⟨v, hworkt, hstept⟩ := step_powered_answers t w rest ht (h.pending ▸ hpend) hop (h.poweredOn ▸ hon)
    exact ⟨_, hstept, hs' ▸ sameButCommit_afterTransfer _ _ _ u v (hs.setPending rest) (ht.setPending rest)
      (h.setPending rest) hon hwork hworkt⟩
  | view v rest hpend hview =>
    rw [step_view t v rest (h.pending ▸ hpend)]
    exact sameButCommit_execView v _ _ s' (hs.setPending rest) (ht.setPending rest) (h.setPending rest) hview

end Sys2Proof.Machine

/-!
Whole frames (42_read_sector.md, 43_write_sector.md): the words a host issues, one TRANSFER after another, and what stands in
the registers and the store after each of them.
-/

namespace Sys2Proof.Machine

/-! ### Runs of TRANSFERs -/

theorem andThen_assoc (r : Result) (f g : State → Result) :
    andThen (andThen r f) g = andThen r fun s => andThen (f s) g := by
  cases r <;> rfl

/-- A run of one more step. -/
theorem steps_snoc (k : Nat) (s : State) : steps (k + 1) s = andThen (steps k s) step := by
  induction k generalizing s with
  | zero => cases h : step s <;> simp [steps, andThen, h]
  | succ k ih =>
    rw [steps, steps, andThen_assoc]
    exact congrArg (andThen (step s)) (funext ih)

theorem steps_snoc_next (k : Nat) (s t u : State) (hrun : steps k s = .next t) (hstep : step t = .next u) :
    steps (k + 1) s = .next u := by
  rw [steps_snoc, hrun, andThen_next, hstep]

/-- A powered card that keeps its invariant, with the operations `todo` still to take. -/
structure Running (todo : List Request) (t : State) : Prop where
  card : CardInv t
  on : t.poweredOn = true
  pending : t.pending = todo

theorem Running.flag {todo : List Request} {t : State} (h : Running todo t) : t.flag = flagReset := h.card.flag h.on

/-- It takes a TRANSFER word, with the effect of a TRANSFER. -/
theorem Running.step {w : OpWord} {todo : List Request} {t : State} (h : Running (.op w :: todo) t)
    (hop : opField w = 0b00#2) :
    ∃ u, storeWork (triField w) (t.setPending todo) = .next u ∧
      Machine.step t = .next (afterTransfer (triField w) (t.setPending todo) u) ∧
      Running todo (afterTransfer (triField w) (t.setPending todo) u) := by
  obtain ⟨u, hwork, hstep⟩ := step_powered_answers t w todo h.card h.pending hop h.on
  obtain ⟨hpow, -, -, hpend⟩ := afterTransfer_keeps _ _ u hwork
  exact ⟨u, hwork, hstep, cardInv_afterTransfer _ _ u (h.card.setPending todo) hwork, hpow.trans h.on, hpend⟩

/-- A TRANSFER that moves to `IDLE` answers `ack = 0`, and one that moves elsewhere `ack = 1`. -/
theorem response_afterTransfer_idle (cmd : Tri) (s u : State)
    (h : (afterTransfer cmd s u).pstate = PState.idle) :
    (afterTransfer cmd s u).response = some (.transfer false (answerByte s)) := by
  change nextPState cmd s.pstate s.address = _ at h
  rw [afterTransfer, h]
  rfl

theorem response_afterTransfer_open (cmd : Tri) (s u : State) (p : PState)
    (h : (afterTransfer cmd s u).pstate = p) (hp : p ≠ PState.idle) :
    (afterTransfer cmd s u).response = some (.transfer true (answerByte s)) := by
  change nextPState cmd s.pstate s.address = _ at h
  rw [afterTransfer, h, bne_iff_ne.2 hp]

/-! ### The words of a frame -/

/-- What is left to take after `j` of the words. -/
def wordsFrom (ws : List OpWord) (rest : List Request) (j : Nat) : List Request := (ws.drop j).map Request.op ++ rest

theorem wordsFrom_eq_cons (ws : List OpWord) (rest : List Request) (j : Nat) (hj : j < ws.length) :
    wordsFrom ws rest j = .op ws[j] :: wordsFrom ws rest (j + 1) := by
  rw [wordsFrom, List.drop_eq_getElem_cons hj]
  rfl

/-- The byte the host sends with a word of the frame. -/
theorem conc_getElem (ws : List OpWord) (j : Nat) (hj : j < ws.length) : conc (triField ws[j]) = sentByte ws j :=
  (sentByte_of_get ws j _ (List.getElem?_eq_getElem hj)).symm

/-- Outside a write a TRANSFER leaves the store. -/
theorem Running.step_not_write {w : OpWord} {todo : List Request} {t : State} (h : Running (.op w :: todo) t)
    (hop : opField w = 0b00#2) (htag : t.pstate.tag ≠ 0b011#3) :
    Machine.step t = .next (afterTransfer (triField w) (t.setPending todo) (t.setPending todo)) ∧
      Running todo (afterTransfer (triField w) (t.setPending todo) (t.setPending todo)) := by
  obtain ⟨u, hwork, hstep, hrun⟩ := h.step hop
  obtain rfl := storeWork_of_not_write _ (t.setPending todo) u htag hwork
  exact ⟨hstep, hrun⟩

/-- The frame-start byte and a command byte, on a card in `IDLE`: both are acknowledged, and the sub-sequence opens with
the store as it was (41_command_dispatch.md R120 to R124). -/
theorem frame_opens (s : State) (b : Byte) (p : PState) (todo : List Request)
    (h : Running (.op (xferWord (.byte frameStartByte)) :: .op (xferWord (.byte b)) :: todo) s)
    (hidle : s.pstate = PState.idle) (hcmd : ∀ a, nextPState (.byte b) PState.awaitCmd a = p) (hp : p ≠ PState.idle) :
    ∃ t u d e, steps 1 s = .next t ∧ t.response = some (.transfer true d) ∧ t.storage = s.storage ∧ t.flag = s.flag ∧
      steps 2 s = .next u ∧ u.response = some (.transfer true e) ∧ u.storage = s.storage ∧ u.pstate = p ∧
      Running todo u := by
  obtain ⟨hstart, hrun⟩ := h.step_not_write (opField_xferWord _) (by rw [hidle]; decide)
  rw [triField_xferWord] at hstart hrun
  generalize ht : afterTransfer (.byte frameStartByte) _ _ = t at hstart hrun
  have hawait : t.pstate = PState.awaitCmd := by
    subst ht
    change nextPState _ s.pstate _ = _
    rw [hidle, nextPState_idle, if_pos rfl]
  obtain ⟨hopen, hrun'⟩ := hrun.step_not_write (opField_xferWord _) (by rw [hawait]; decide)
  rw [triField_xferWord] at hopen hrun'
  have hsub : (afterTransfer (.byte b) (t.setPending todo) (t.setPending todo)).pstate = p := by
    change nextPState _ t.pstate _ = _
    rw [hawait, hcmd]
  have hfirst : steps 1 s = .next t := steps_snoc_next 0 s s t rfl hstart
  have hstore : t.storage = s.storage := by rw [← ht]; rfl
  have hresp : t.response = some (.transfer true (answerByte (s.setPending (.op (xferWord (.byte b)) :: todo)))) := by
    subst ht
    exact response_afterTransfer_open _ _ _ _ hawait (by decide)
  exact ⟨t, _, _, _, hfirst, hresp, hstore, by rw [hrun.flag, h.flag], steps_snoc_next 1 s t _ hfirst hopen,
    response_afterTransfer_open _ _ _ _ hsub hp, hstore, hsub, hrun'⟩

theorem toNat_ofNat_step (j : Nat) (hj : j < 256) : (BitVec.ofNat 8 j).toNat = j := by
  rw [BitVec.toNat_ofNat, Nat.mod_eq_of_lt hj]

theorem ofNat_step_eq_iff (j n : Nat) (hj : j < 256) (hn : n < 256) : BitVec.ofNat 8 j = BitVec.ofNat 8 n ↔ j = n := by
  refine ⟨fun h => ?_, congrArg _⟩
  rw [← toNat_ofNat_step j hj, h, toNat_ofNat_step n hn]

theorem ofNat_succ_step (j : Nat) : BitVec.ofNat 8 j + 1 = BitVec.ofNat 8 (j + 1) := (BitVec.ofNat_add j 1).symm

/-- The raw address of a frame: the MSB at step 2, the LSB at step 3 (30_encoding.md R80). -/
def sentAddress (ws : List OpWord) : BitVec 16 := sentByte ws 2 ++ sentByte ws 3

/-! ### A read frame -/

/-- A card after `j` words of a read frame that began in `s`. -/
structure ReadRun (s : State) (ws : List OpWord) (rest : List Request) (j : Nat) (t : State) : Prop where
  running : Running (wordsFrom ws rest j) t
  pstate : t.pstate = PState.read (BitVec.ofNat 8 j)
  acked : ∃ d, t.response = some (.transfer true d)
  storage : t.storage = s.storage
  msb : j = 3 → t.address = addressOfMsb (sentByte ws 2)
  address : 4 ≤ j → t.address = decodeAddress (sentAddress ws)

/-- The number of the last step of a read, which ends early for a bad sector (R148, R151). -/
def lastReadStep (ws : List OpWord) : Nat := if (sentAddress ws).toNat ≤ 0x3FF then 137 else 7

/-- A bad sector's address is poisoned, and a sector number's is not (R144). -/
theorem decodeAddress_eq_poison_iff (raw : BitVec 16) : decodeAddress raw = poison ↔ 0x3FF < raw.toNat := by
  obtain ⟨habove, hbelow⟩ := addressDecodePoisonsOutOfRange raw
  refine ⟨fun h => ?_, habove⟩
  by_contra hle
  rw [hbelow (by omega)] at h
  exact ne_poison_of_le_maxSector (by omega) h

theorem lastReadStep_le (ws : List OpWord) : lastReadStep ws ≤ 137 := by
  unfold lastReadStep
  split_ifs <;> decide

/-- A read ends at its last step and at no step before. -/
theorem ReadRun.ends_iff {s t : State} {ws : List OpWord} {rest : List Request} {j : Nat} (h : ReadRun s ws rest j t)
    (hj : j ≤ lastReadStep ws) :
    frameEnds (PState.read (BitVec.ofNat 8 j)) t.address = true ↔ j = lastReadStep ws := by
  have hlast := lastReadStep_le ws
  have h137 : BitVec.ofNat 8 j = 137 ↔ j = 137 := ofNat_step_eq_iff j 137 (by omega) (by decide)
  have h7 : BitVec.ofNat 8 j = 7 ↔ j = 7 := ofNat_step_eq_iff j 7 (by omega) (by decide)
  have hpoison (h4 : j = 7) : t.address = poison ↔ 0x3FF < (sentAddress ws).toNat := by
    rw [h.address (by omega), decodeAddress_eq_poison_iff]
  rw [frameEnds_read, h137, h7, and_congr_right hpoison]
  unfold lastReadStep at hj ⊢
  split_ifs at hj ⊢ <;> omega

/-- The next word of a read frame. -/
theorem ReadRun.succ {s t : State} {ws : List OpWord} {rest : List Request} {j : Nat} (h : ReadRun s ws rest j t)
    (hlen : ws.length = 138) (hops : ∀ w ∈ ws, opField w = 0b00#2) (hj : j < lastReadStep ws) :
    ∃ u, step t = .next u ∧ ReadRun s ws rest (j + 1) u := by
  have hlast := lastReadStep_le ws
  have hj' : j < ws.length := by omega
  have hstep := toNat_ofNat_step j (by omega)
  obtain ⟨hnext, hrun⟩ := (wordsFrom_eq_cons ws rest j hj' ▸ h.running).step_not_write
    (hops _ (List.getElem_mem hj')) (by rw [h.pstate]; simp)
  have hp : (afterTransfer (triField ws[j]) (t.setPending (wordsFrom ws rest (j + 1)))
      (t.setPending (wordsFrom ws rest (j + 1)))).pstate = PState.read (BitVec.ofNat 8 (j + 1)) := by
    change nextPState _ t.pstate t.address = _
    rw [h.pstate, nextPState_read, if_neg (mt (h.ends_iff hj.le).1 (by omega)), ofNat_succ_step]
  refine ⟨_, hnext, hrun, hp, ⟨_, response_afterTransfer_open _ _ _ _ hp (ne_idle_of_tag (by decide))⟩, h.storage,
    fun h3 => ?msb, fun h4 => ?address⟩
  case msb =>
    obtain rfl : j = 2 := by omega
    obtain ⟨ha, -⟩ := next_step2 (triField ws[2]) (t.setPending (wordsFrom ws rest 3)) (.inl h.pstate)
    rw [conc_getElem] at ha
    exact ha
  case address =>
    obtain rfl | hlater : j = 3 ∨ 4 ≤ j := by omega
    · obtain ⟨ha, -, -⟩ := next_step3 (triField ws[3]) (t.setPending (wordsFrom ws rest 4)) (.inl h.pstate)
      rw [State.setPending_address, h.msb rfl, conc_getElem, withLsb_addressOfMsb] at ha
      exact ha
    · have ha := nextAddress_later (triField ws[j]) (t.setPending (wordsFrom ws rest (j + 1)))
        (by rw [State.setPending_pstate, h.pstate]; change 4 ≤ (BitVec.ofNat 8 j).toNat; omega)
      exact ha.trans (h.address hlater)

/-- A read frame runs to its last step. -/
theorem readRun_steps (s : State) (ws : List OpWord) (rest : List Request) (h : CardInv s) (hon : s.poweredOn = true)
    (hidle : s.pstate = PState.idle) (hlen : ws.length = 138) (hops : ∀ w ∈ ws, opField w = 0b00#2)
    (hpend : s.pending = (0x181#11 :: 0x152#11 :: ws).map Request.op ++ rest) :
    (∃ t d, steps 1 s = .next t ∧ t.response = some (.transfer true d) ∧ t.storage = s.storage ∧ t.flag = s.flag) ∧
      ∀ j ≤ lastReadStep ws, ∃ t, steps (j + 2) s = .next t ∧ ReadRun s ws rest j t := by
  obtain ⟨t, u, d, e, hfirst, hresp, hstore, hflag, hsecond, hresp', hstore', hp, hrun⟩ :=
    frame_opens s cmdReadByte (PState.read 0) (wordsFrom ws rest 0) ⟨h, hon, hpend⟩ hidle (fun _ => rfl) (by decide)
  refine ⟨⟨t, d, hfirst, hresp, hstore, hflag⟩, fun j hj => ?_⟩
  induction j with
  | zero => exact ⟨u, hsecond, hrun, hp, ⟨e, hresp'⟩, hstore', fun h => absurd h (by decide), fun h => absurd h (by decide)⟩
  | succ j ih =>
    obtain ⟨v, hsteps, hv⟩ := ih (by omega)
    obtain ⟨v', hstep, hv'⟩ := hv.succ hlen hops hj
    exact ⟨v', steps_snoc_next (j + 2) s v v' hsteps hstep, hv'⟩

/-- The last word of a read frame. -/
theorem ReadRun.ends {s t : State} {ws : List OpWord} {rest : List Request} (h : ReadRun s ws rest (lastReadStep ws) t)
    (hlen : ws.length = 138) (hops : ∀ w ∈ ws, opField w = 0b00#2) :
    ∃ u d, step t = .next u ∧ u.response = some (.transfer false d) ∧ u.pstate = PState.idle ∧ u.storage = s.storage ∧
      u.flag = flagReset := by
  have hj' : lastReadStep ws < ws.length := by have := lastReadStep_le ws; omega
  obtain ⟨hnext, hrun⟩ := (wordsFrom_eq_cons ws rest _ hj' ▸ h.running).step_not_write
    (hops _ (List.getElem_mem hj')) (by rw [h.pstate]; simp)
  generalize hu : afterTransfer _ _ _ = u at hnext hrun
  have hp : u.pstate = PState.idle := by
    subst hu
    change nextPState _ t.pstate t.address = _
    rw [h.pstate, nextPState_read, if_pos ((h.ends_iff (Nat.le_refl _)).2 rfl)]
  have hstore : u.storage = s.storage := by
    rw [← hu]
    exact h.storage
  subst hu
  exact ⟨_, _, hnext, response_afterTransfer_idle _ _ _ hp, hp, hstore, hrun.flag⟩

/-- Settles O51: the frame opens, runs to its last step, and ends there. -/
theorem readFrameHasItsFullLength : Obligations.ReadFrameHasItsFullLength := by
  intro s ws msb lsb rest h hon hidle hlen hops hmsb hlsb hpend
  have haddr : conc (triField msb) ++ conc (triField lsb) = sentAddress ws := by
    rw [sentAddress, sentByte_of_get ws 2 msb hmsb, sentByte_of_get ws 3 lsb hlsb]
  obtain ⟨hfirst, hruns⟩ := readRun_steps s ws rest h hon hidle hlen hops hpend
  refine ⟨lastReadStep ws + 3, ?length, fun j hlo hhi => ?acked, ?ended⟩
  case length =>
    rw [haddr, lastReadStep]
    split_ifs <;> rfl
  case acked =>
    obtain rfl | ⟨i, rfl⟩ : j = 1 ∨ ∃ i, j = i + 2 := by
      obtain rfl | hj : j = 1 ∨ 2 ≤ j := by omega
      · exact .inl rfl
      · exact .inr ⟨j - 2, by omega⟩
    · exact hfirst
    · obtain ⟨t, hsteps, ht⟩ := hruns i (by omega)
      obtain ⟨d, hresp⟩ := ht.acked
      exact ⟨t, d, hsteps, hresp, ht.storage, by rw [ht.running.flag, h.flag hon]⟩
  case ended =>
    obtain ⟨t, hsteps, ht⟩ := hruns _ (Nat.le_refl _)
    obtain ⟨u, d, hstep, hresp, hp, hstore, hflag⟩ := ht.ends hlen hops
    exact ⟨u, d, steps_snoc_next _ s t u hsteps hstep, hresp, hp, hstore, by rw [hflag, h.flag hon]⟩

end Sys2Proof.Machine

/-!
The whole write frame (43_write_sector.md), under every `WRITE_COMMIT`: after each word of it, the checksum is the XOR of the
bytes sent, and the card holds the data bytes sent at their offsets.
-/

namespace Sys2Proof.Machine

/-- The checksum of the address bytes and the first `n` data bytes of a write frame (R175). -/
def sentSum (ws : List OpWord) (n : Nat) : Byte :=
  sentByte ws 2 ^^^ sentByte ws 3 ^^^ xorUpTo (fun i => sentByte ws (4 + i)) n

/-- Byte `a` of the card after `n` data bytes of a write frame that found `before` there: of a valid sector's first `n`
bytes, the one sent (R174, R177). -/
def sentOr (ws : List OpWord) (n : Nat) (a : Nat) (before : Byte) : Byte :=
  if (sentAddress ws).toNat ≤ 0x3FF ∧ sectorBase (sentAddress ws) ≤ a ∧ a < sectorBase (sentAddress ws) + n then
    sentByte ws (4 + (a - sectorBase (sentAddress ws)))
  else before

/-- A card after `j` words of a write frame that began in `s`. -/
structure WriteRun (s : State) (ws : List OpWord) (rest : List Request) (j : Nat) (t : State) : Prop where
  running : Running (wordsFrom ws rest j) t
  pstate : t.pstate = PState.write (BitVec.ofNat 8 j)
  acked : ∃ d, t.response = some (.transfer true d)
  msb : j = 3 → t.address = addressOfMsb (sentByte ws 2) ∧ t.checksum = sentByte ws 2
  address : 4 ≤ j → t.address = decodeAddress (sentAddress ws)
  sum : 4 ≤ j → j ≤ 132 → t.checksum = sentSum ws (j - 4)
  total : 133 ≤ j → t.checksum = sentSum ws 128 ^^^ sentByte ws 132
  held : ∀ a, heldByte t a = sentOr ws (min (j - 4) 128) a (s.storage.read a)

theorem sentOr_zero (ws : List OpWord) (a : Nat) (before : Byte) : sentOr ws 0 a before = before :=
  if_neg (by omega)

/-- One more data byte is held at its offset. -/
theorem sentOr_succ (ws : List OpWord) (n a : Nat) (before : Byte) :
    sentOr ws (n + 1) a before =
      if (sentAddress ws).toNat ≤ 0x3FF ∧ a = sectorBase (sentAddress ws) + n then sentByte ws (4 + n)
      else sentOr ws n a before := by
  unfold sentOr
  split_ifs with hin hat hbefore
  · rw [hat.2, Nat.add_sub_cancel_left]
  · rfl
  · omega
  · omega
  · omega
  · rfl

/-- From step 3 on a word of a write frame leaves the frame's address. -/
theorem WriteRun.nextAddress {s t : State} {ws : List OpWord} {rest : List Request} {j : Nat} {w : OpWord}
    (h : WriteRun s ws rest j t) (hlo : 3 ≤ j) (hhi : j ≤ 135) (hw : conc (triField w) = sentByte ws j)
    (todo : List Request) : nextAddress (triField w) (t.setPending todo) = decodeAddress (sentAddress ws) := by
  obtain rfl | hlater : j = 3 ∨ 4 ≤ j := by omega
  · obtain ⟨ha, -, -⟩ := next_step3 (triField w) (t.setPending todo) (.inr h.pstate)
    rw [ha, State.setPending_address, (h.msb rfl).1, hw, withLsb_addressOfMsb, sentAddress]
  · have hstep := toNat_ofNat_step j (by omega)
    rw [nextAddress_later _ (t.setPending todo) (by rw [State.setPending_pstate, h.pstate]; change 4 ≤ (BitVec.ofNat 8 j).toNat; omega)]
    exact h.address hlater

/-- `WRITE(j)` is a data step exactly from 4 to 131. -/
theorem WriteRun.movesData_iff {s t : State} {ws : List OpWord} {rest : List Request} {j : Nat}
    (h : WriteRun s ws rest j t) (hhi : j ≤ 135) : movesData t.pstate = true ↔ 4 ≤ j ∧ j ≤ 131 := by
  rw [h.pstate, movesData_write, toNat_ofNat_step j (by omega)]

/-- The LSB and the data bytes go into the checksum. -/
theorem WriteRun.nextChecksum_data {s t : State} {ws : List OpWord} {rest : List Request} {j : Nat} {w : OpWord}
    (h : WriteRun s ws rest j t) (hlo : 3 ≤ j) (hhi : j ≤ 131) (hw : conc (triField w) = sentByte ws j)
    (todo : List Request) : nextChecksum (triField w) (t.setPending todo) = sentSum ws (j - 3) := by
  obtain rfl | hlater : j = 3 ∨ 4 ≤ j := by omega
  · obtain ⟨-, hc, -⟩ := next_step3 (triField w) (t.setPending todo) (.inr h.pstate)
    rw [hc, State.setPending_checksum, (h.msb rfl).2, hw]
    exact BitVec.xor_zero.symm
  · have hmoves := (h.movesData_iff (by omega)).2 ⟨hlater, hhi⟩
    have hmoved : movedByte (triField w) (t.setPending todo) = sentByte ws j := by
      rw [movedByte, State.setPending_pstate, h.pstate, if_neg (by simp), hw]
    obtain ⟨n, rfl⟩ := Nat.exists_eq_add_of_le hlater
    rw [Machine.nextChecksum_data _ (t.setPending todo) hmoves, hmoved, State.setPending_checksum,
      h.sum (by omega) (by omega), show 4 + n - 4 = n by omega, show 4 + n - 3 = n + 1 by omega, sentSum, sentSum,
      xorUpTo_succ, BitVec.xor_assoc]

/-- The host's checksum goes in last (R178). -/
theorem WriteRun.nextChecksum_total {s t : State} {ws : List OpWord} {rest : List Request} {j : Nat} {w : OpWord}
    (h : WriteRun s ws rest j t) (hlo : 132 ≤ j) (hhi : j ≤ 135) (hw : conc (triField w) = sentByte ws j)
    (todo : List Request) :
    nextChecksum (triField w) (t.setPending todo) = sentSum ws 128 ^^^ sentByte ws 132 := by
  obtain rfl | hlater : j = 132 ∨ 133 ≤ j := by omega
  · have hp : (t.setPending todo).pstate = PState.write 132 := h.pstate
    have hc : nextChecksum (triField w) (t.setPending todo) = t.checksum ^^^ conc (triField w) := by
      rw [nextChecksum, hp]
      rfl
    rw [hc, hw, h.sum (by decide) (by decide)]
  · have hstep := toNat_ofNat_step j (by omega)
    obtain ⟨-, hc, -⟩ := next_quiet (triField w) (t.setPending todo)
      (by rw [State.setPending_pstate, h.pstate]; change 4 ≤ (BitVec.ofNat 8 j).toNat; omega)
      (mt (h.movesData_iff hhi).1 (by omega))
      (by
        rw [State.setPending_pstate, h.pstate]
        intro heq
        have := (ofNat_step_eq_iff j 132 (by omega) (by decide)).1 (congrArg PState.step heq)
        omega)
    rw [hc, State.setPending_checksum, h.total hlater]

/-- A word of a write frame stores its byte at its offset, in a data step on a valid sector. -/
theorem WriteRun.storesAt_iff {s t : State} {ws : List OpWord} {rest : List Request} {j : Nat}
    (h : WriteRun s ws rest j t) (hhi : j ≤ 135) (a : Nat) :
    storesAt t a = true ↔
      (4 ≤ j ∧ j ≤ 131) ∧ (sentAddress ws).toNat ≤ 0x3FF ∧ a = sectorBase (sentAddress ws) + (j - 4) := by
  rw [Machine.storesAt_iff, h.movesData_iff hhi, h.pstate]
  refine (and_iff_right rfl).trans (and_congr_right fun ⟨h4, h131⟩ => ?_)
  obtain ⟨-, hregs⟩ := h.running.card.writeRegs h.pstate
  have hstep := toNat_ofNat_step j (by omega)
  have hcount := hregs.counter (by omega)
  have hraw := addressDecodePoisonsOutOfRange (sentAddress ws)
  rw [dataOffset, h.address h4, ne_eq, decodeAddress_eq_poison_iff, Nat.not_lt]
  refine and_congr_right fun hsector => ?_
  rw [hraw.2 hsector, hcount, show min ((BitVec.ofNat 8 j).toNat - 4) 128 = j - 4 by omega]

/-- The bytes held after a word of a write frame. -/
theorem WriteRun.heldByte_next {s t u : State} {ws : List OpWord} {rest todo : List Request} {j : Nat} {w : OpWord}
    (h : WriteRun s ws rest j t) (hhi : j ≤ 135) (hw : conc (triField w) = sentByte ws j)
    (hwork : storeWork (triField w) (t.setPending todo) = .next u) (a : Nat) :
    heldByte (afterTransfer (triField w) (t.setPending todo) u) a =
      sentOr ws (min (j + 1 - 4) 128) a (s.storage.read a) := by
  have hstores : storesAt (t.setPending todo) a = true ↔ _ := h.storesAt_iff hhi a
  have hheld : heldByte (t.setPending todo) a = sentOr ws (min (j - 4) 128) a (s.storage.read a) := h.held a
  rw [heldByte_afterTransfer _ _ u (h.running.card.setPending todo) h.running.on hwork a, if_congr hstores rfl rfl, hheld, hw]
  by_cases hdata : 4 ≤ j ∧ j ≤ 131
  · obtain ⟨n, rfl⟩ := Nat.exists_eq_add_of_le hdata.1
    rw [show 4 + n - 4 = n by omega, show min n 128 = n by omega, show min (4 + n + 1 - 4) 128 = n + 1 by omega,
      sentOr_succ]
    simp only [hdata, true_and, and_self]
  · rw [if_neg fun hat => hdata hat.1, show min (j + 1 - 4) 128 = min (j - 4) 128 by omega]

/-- The next word of a write frame. -/
theorem WriteRun.succ {s t : State} {ws : List OpWord} {rest : List Request} {j : Nat} (h : WriteRun s ws rest j t)
    (hlen : ws.length = 136) (hops : ∀ w ∈ ws, opField w = 0b00#2) (hj : j < 135) :
    ∃ u, step t = .next u ∧ WriteRun s ws rest (j + 1) u := by
  have hj' : j < ws.length := by omega
  have hw := conc_getElem ws j hj'
  obtain ⟨u, hwork, hnext, hrun⟩ := (wordsFrom_eq_cons ws rest j hj' ▸ h.running).step (hops _ (List.getElem_mem hj'))
  have hp : (afterTransfer (triField ws[j]) (t.setPending (wordsFrom ws rest (j + 1))) u).pstate =
      PState.write (BitVec.ofNat 8 (j + 1)) := by
    have hgoes : ¬BitVec.ofNat 8 j = 135 := mt (ofNat_step_eq_iff j 135 (by omega) (by decide)).1 (by omega)
    rw [pstate_afterTransfer_write _ (t.setPending (wordsFrom ws rest (j + 1))) u _ h.pstate, if_neg hgoes, ofNat_succ_step]
  refine ⟨_, hnext, hrun, hp, ⟨_, response_afterTransfer_open _ _ _ _ hp (ne_idle_of_tag (by decide))⟩, fun h3 => ?msb,
    fun h4 => h.nextAddress (by omega) (by omega) hw _, fun h4 h132 => ?sum,
    fun h133 => h.nextChecksum_total (by omega) (by omega) hw _, h.heldByte_next (by omega) hw hwork⟩
  case msb =>
    obtain rfl : j = 2 := by omega
    rw [← hw]
    exact next_step2 (triField ws[2]) (t.setPending (wordsFrom ws rest 3)) (.inr h.pstate)
  case sum =>
    rw [show j + 1 - 4 = j - 3 by omega]
    exact h.nextChecksum_data (by omega) (by omega) hw _

/-- A write frame runs to its last step. -/
theorem writeRun_steps (s : State) (ws : List OpWord) (rest : List Request) (h : CardInv s) (hon : s.poweredOn = true)
    (hidle : s.pstate = PState.idle) (hlen : ws.length = 136) (hops : ∀ w ∈ ws, opField w = 0b00#2)
    (hpend : s.pending = (0x181#11 :: 0x157#11 :: ws).map Request.op ++ rest) :
    (∃ t d, steps 1 s = .next t ∧ t.response = some (.transfer true d) ∧ t.flag = s.flag) ∧
      ∀ j ≤ 135, ∃ t, steps (j + 2) s = .next t ∧ WriteRun s ws rest j t := by
  obtain ⟨t, u, d, e, hfirst, hresp, -, hflag, hsecond, hresp', hstore, hp, hrun⟩ :=
    frame_opens s cmdWriteByte (PState.write 0) (wordsFrom ws rest 0) ⟨h, hon, hpend⟩ hidle (fun _ => rfl) (by decide)
  refine ⟨⟨t, d, hfirst, hresp, hflag⟩, fun j hj => ?_⟩
  induction j with
  | zero =>
    have hnot : ¬dataWaits u := by
      rw [dataWaits_write_iff hp]
      simp
    refine ⟨u, hsecond, hrun, hp, ⟨e, hresp'⟩, fun h => absurd h (by decide), fun h => absurd h (by decide),
      fun h => absurd h (by decide), fun h => absurd h (by decide), fun a => ?_⟩
    exact (heldByte_of_not_waits hnot a).trans ((congrArg (Memory.read · a) hstore).trans (sentOr_zero ws a _).symm)
  | succ j ih =>
    obtain ⟨v, hsteps, hv⟩ := ih (by omega)
    obtain ⟨v', hstep, hv'⟩ := hv.succ hlen hops hj
    exact ⟨v', steps_snoc_next (j + 2) s v v' hsteps hstep, hv'⟩

/-- The verdict on the words of a write frame (R176, R178). -/
def sentVerdict (ws : List OpWord) : Byte := verdict (decodeAddress (sentAddress ws)) (sentSum ws 128 ^^^ sentByte ws 132)

/-- The last word of a write frame: the verdict is answered, the frame is closed, and the store holds what was sent. -/
theorem writeFrame_ends (s : State) (ws : List OpWord) (rest : List Request) (h : CardInv s) (hon : s.poweredOn = true)
    (hidle : s.pstate = PState.idle) (hlen : ws.length = 136) (hops : ∀ w ∈ ws, opField w = 0b00#2)
    (hpend : s.pending = (0x181#11 :: 0x157#11 :: ws).map Request.op ++ rest) :
    ∃ t, steps 138 s = .next t ∧ t.response = some (.transfer false (.byte (sentVerdict ws))) ∧ t.pstate = PState.idle ∧
      CardInv t ∧ t.flag = s.flag ∧ ∀ a, t.storage.read a = sentOr ws 128 a (s.storage.read a) := by
  obtain ⟨-, hruns⟩ := writeRun_steps s ws rest h hon hidle hlen hops hpend
  obtain ⟨t, hsteps, ht⟩ := hruns 135 (by decide)
  have hj : 135 < ws.length := by omega
  obtain ⟨u, hwork, hnext, hrun⟩ := (wordsFrom_eq_cons ws rest 135 hj ▸ ht.running).step (hops _ (List.getElem_mem hj))
  have hp : (afterTransfer (triField ws[135]) (t.setPending (wordsFrom ws rest 136)) u).pstate = PState.idle := by
    rw [pstate_afterTransfer_write _ (t.setPending (wordsFrom ws rest 136)) u _ ht.pstate]
    rfl
  have hanswer : answerByte (t.setPending (wordsFrom ws rest 136)) = .byte (sentVerdict ws) := by
    have hverdict : answerByte (t.setPending (wordsFrom ws rest 136)) = .byte (verdict t.address t.checksum) := by
      rw [answerByte, State.setPending_pstate, ht.pstate]
      rfl
    rw [hverdict, ht.address (by decide), ht.total (by decide), sentVerdict]
  refine ⟨_, steps_snoc_next 137 s t _ hsteps hnext, ?response, hp, hrun.card, by rw [hrun.flag, h.flag hon], fun a => ?store⟩
  case response => rw [response_afterTransfer_idle _ _ _ hp, hanswer]
  case store =>
    rw [← heldByte_of_not_waits (not_dataWaits_of_tag (by rw [hp]; decide)),
      ht.heldByte_next (Nat.le_refl _) (conc_getElem ws 135 hj) hwork]
    rfl

/-- Settles O52: the frame opens, runs to its last step, and ends there. -/
theorem writeFrameHasItsFullLength : Obligations.WriteFrameHasItsFullLength := by
  intro s ws rest h hon hidle hlen hops hpend
  obtain ⟨hfirst, hruns⟩ := writeRun_steps s ws rest h hon hidle hlen hops hpend
  refine ⟨fun j hlo hhi => ?acked, ?ended⟩
  case acked =>
    obtain rfl | ⟨i, rfl⟩ : j = 1 ∨ ∃ i, j = i + 2 := by
      obtain rfl | hj : j = 1 ∨ 2 ≤ j := by omega
      · exact .inl rfl
      · exact .inr ⟨j - 2, by omega⟩
    · exact hfirst
    · obtain ⟨t, hsteps, ht⟩ := hruns i (by omega)
      obtain ⟨d, hresp⟩ := ht.acked
      exact ⟨t, d, hsteps, hresp, by rw [ht.running.flag, h.flag hon]⟩
  case ended =>
    obtain ⟨t, hsteps, hresp, hp, -, hflag, -⟩ := writeFrame_ends s ws rest h hon hidle hlen hops hpend
    exact ⟨t, _, hsteps, hresp, hp, hflag⟩

/-- Settles O47: the store after the frame is the store before it with the data bytes sent at their offsets. -/
theorem completedWriteStoresItsData : Obligations.CompletedWriteStoresItsData := by
  intro s ws rest h hon hidle hlen hops hpend
  obtain ⟨t, hsteps, -, -, hcard, -, hread⟩ := writeFrame_ends s ws rest h hon hidle hlen hops hpend
  refine ⟨t, hsteps, ?_⟩
  change if (sentAddress ws).toNat ≤ 0x3FF then _ else _
  split_ifs with hsector
  · refine ⟨fun j hj => ?inside, fun a ha => ?outside⟩
    case inside =>
      change t.storage.read (sectorBase (sentAddress ws) + j) = _
      rw [hread, sentOr, if_pos ⟨hsector, by omega, by omega⟩, Nat.add_sub_cancel_left]
    case outside =>
      change a < sectorBase (sentAddress ws) ∨ sectorBase (sentAddress ws) + 128 ≤ a at ha
      rw [hread, sentOr, if_neg (by omega)]
  · refine Memory.ext_of_read _ _ hcard.store h.store fun a => ?_
    rw [hread, sentOr, if_neg fun hin => hsector hin.1]

/-- Settles O55: the verdict on the frame's address and checksum, which the host's byte clears exactly if it is the XOR of
the bytes sent. -/
theorem writeFrameAnswersItsVerdict : Obligations.WriteFrameAnswersItsVerdict := by
  intro s ws rest h hon hidle hlen hops hpend
  obtain ⟨t, hsteps, hresp, -⟩ := writeFrame_ends s ws rest h hon hidle hlen hops hpend
  refine ⟨t, hsteps, hresp.trans (congrArg (fun b => some (Response.transfer false (.byte b))) ?_)⟩
  change sentVerdict ws = if 0x3FF < (sentAddress ws).toNat then _ else _
  unfold sentVerdict
  split_ifs with hbad hsum
  · rw [(decodeAddress_eq_poison_iff _).2 hbad, verdict_poison]
    rfl
  · rw [verdict_of_ne_poison _ _ (mt (decodeAddress_eq_poison_iff _).1 hbad), if_xor_ne_zero]
    exact if_pos hsum
  · rw [verdict_of_ne_poison _ _ (mt (decodeAddress_eq_poison_iff _).1 hbad), if_xor_ne_zero]
    exact if_neg hsum

end Sys2Proof.Machine

/-!
The drain (70_reset_and_hazards.md R282): a host that sends `Z` finds `ack = 0` within 136 transfers. Every `Z` inside a frame
brings the card nearer to the frame's end, as a bound on the transfers left says.
-/

namespace Sys2Proof.Machine

/-! ### How many transfers a host that sends `Z` still needs -/

/-- A read that ends at step 7 if the host sends `Z`: its address is no sector number, or has not been sent yet. -/
def ReadEndsEarly (k : BitVec 8) (address : BitVec 16) : Prop := k.toNat ≤ 2 ∨ maxSector.toNat < address.toNat

/-- At most `n` transfers of `Z` bring the card to `IDLE`. -/
inductive DrainsWithin (n : Nat) (p : PState) (address : BitVec 16) : Prop where
  | outside (hp : p = PState.idle ∨ p = PState.awaitCmd) (hn : 1 ≤ n)
  | readEarly (k : BitVec 8) (hp : p = PState.read k) (hearly : ReadEndsEarly k address) (hn : 8 ≤ k.toNat + n)
  | read (k : BitVec 8) (hp : p = PState.read k) (hn : 138 ≤ k.toNat + n)
  | write (k : BitVec 8) (hp : p = PState.write k) (hn : 136 ≤ k.toNat + n)
  | ident (k : BitVec 8) (hp : p = PState.ident k) (hn : 8 ≤ k.toNat + n)

/-- No frame is longer than 136 transfers of `Z`: a read whose address is still to come is a read of a bad sector. -/
theorem drainsWithin_136 (s : State) (h : CardInv s) : DrainsWithin 136 s.pstate s.address := by
  obtain hp | hp | ⟨k, hk, hp⟩ | ⟨k, hk, hp⟩ | ⟨k, hk, hp⟩ := (legal_iff _).1 h.legal
  · exact .outside (.inl hp) (by decide)
  · exact .outside (.inr hp) (by decide)
  · obtain hstart | hlate : k.toNat ≤ 2 ∨ 3 ≤ k.toNat := by omega
    · exact .readEarly k hp (.inl hstart) (by omega)
    · exact .read k hp (by omega)
  · exact .write k hp (by omega)
  · exact .ident k hp (by omega)

/-- A read that is to end early still is after a `Z`, until it ends. -/
theorem readEndsEarly_afterTransfer (s u : State) (k : BitVec 8) (h : CardInv s) (hp : s.pstate = PState.read k)
    (hgoes : ¬(k = 137 ∨ (k = 7 ∧ s.address = poison))) (hearly : ReadEndsEarly k s.address) :
    k.toNat ≤ 6 ∧ ReadEndsEarly (k + 1) (afterTransfer .z s u).address := by
  obtain ⟨-, hregs⟩ := h.readRegs hp
  have hlate : 4 ≤ k.toNat → s.address = poison := fun h4 =>
    (hregs.address h4).resolve_right fun hle => by
      unfold ReadEndsEarly at hearly
      omega
  have h6 : k.toNat ≤ 6 := by
    by_contra hge
    obtain h7 | h8 : k = 7 ∨ 8 ≤ k.toNat := by bv_omega
    · exact hgoes (.inr ⟨h7, hlate (by omega)⟩)
    · have hsector := hregs.sector h8
      rw [hlate (by omega)] at hsector
      exact absurd hsector (by decide)
  refine ⟨h6, ?_⟩
  change ReadEndsEarly (k + 1) (nextAddress .z s)
  obtain h1 | rfl | rfl | h4 : k.toNat ≤ 1 ∨ k = 2 ∨ k = 3 ∨ 4 ≤ k.toNat := by bv_omega
  · exact .inl (by bv_omega)
  · obtain ⟨haddr, -⟩ := next_step2 .z s (.inl hp)
    rw [haddr]
    exact .inr (by decide)
  · obtain ⟨haddr, -, -⟩ := next_step3 .z s (.inl hp)
    have hbad : maxSector.toNat < s.address.toNat := hearly.resolve_left (by decide)
    have hle : s.address.toNat ≤ (withLsb s.address (conc .z)).toNat := by
      rw [withLsb, BitVec.toNat_or]
      exact Nat.left_le_or
    rw [haddr, (decodeAddress_eq_poison_iff _).2 (hbad.trans_le hle)]
    exact .inr (by decide)
  · rw [nextAddress_later .z s (by rwa [hp]), hlate h4]
    exact .inr (by decide)

/-- A `Z` ends the frame or brings the card one transfer nearer to its end. -/
theorem drainsWithin_afterTransfer (n : Nat) (s u : State) (h : CardInv s) (hd : DrainsWithin (n + 1) s.pstate s.address) :
    (afterTransfer .z s u).pstate = PState.idle ∨
      DrainsWithin n (afterTransfer .z s u).pstate (afterTransfer .z s u).address := by
  have hnext : (afterTransfer .z s u).pstate = nextPState .z s.pstate s.address := rfl
  have hread (k : BitVec 8) (hp : s.pstate = PState.read k) :
      (afterTransfer .z s u).pstate = PState.idle ∨
        ¬(k = 137 ∨ (k = 7 ∧ s.address = poison)) ∧ (afterTransfer .z s u).pstate = PState.read (k + 1) := by
    rw [hnext, hp, nextPState_read, if_congr (frameEnds_read k _) rfl rfl]
    split_ifs with hends
    · exact .inl rfl
    · exact .inr ⟨hends, rfl⟩
  cases hd with
  | outside hp _ => obtain hp | hp := hp <;> exact .inl (by rw [hnext, hp]; rfl)
  | readEarly k hp hearly hn =>
    obtain hidle | ⟨hgoes, hp'⟩ := hread k hp
    · exact .inl hidle
    · obtain ⟨h6, hearly'⟩ := readEndsEarly_afterTransfer s u k h hp hgoes hearly
      exact .inr (.readEarly (k + 1) hp' hearly' (by bv_omega))
  | read k hp hn =>
    obtain hidle | ⟨hgoes, hp'⟩ := hread k hp
    · exact .inl hidle
    · obtain ⟨hk, -⟩ := h.readRegs hp
      exact .inr (.read (k + 1) hp' (by bv_omega))
  | write k hp hn =>
    have hp' := pstate_afterTransfer_write .z s u k hp
    split_ifs at hp'
    · exact .inl hp'
    · obtain ⟨hk, -⟩ := h.writeRegs hp
      exact .inr (.write (k + 1) hp' (by bv_omega))
  | ident k hp hn =>
    rw [hp, nextPState_ident, if_congr (frameEnds_ident k _) rfl rfl] at hnext
    split_ifs at hnext
    · exact .inl hnext
    · have hk : k.toNat ≤ 7 := (legal_ident_iff k).1 (hp ▸ h.legal)
      exact .inr (.ident (k + 1) hnext (by bv_omega))

/-- A legal protocol state takes at least one transfer. -/
theorem not_drainsWithin_zero (s : State) (h : CardInv s) : ¬DrainsWithin 0 s.pstate s.address := by
  rintro (⟨-, hn⟩ | ⟨k, hp, hearly, hn⟩ | ⟨k, hp, hn⟩ | ⟨k, hp, hn⟩ | ⟨k, hp, hn⟩)
  · exact absurd hn (by decide)
  · obtain ⟨-, hregs⟩ := h.readRegs hp
    have hsector := hregs.sector (by omega)
    unfold ReadEndsEarly at hearly
    omega
  · obtain ⟨hk, -⟩ := h.readRegs hp
    omega
  · obtain ⟨hk, -⟩ := h.writeRegs hp
    omega
  · have hk : k.toNat ≤ 7 := (legal_ident_iff k).1 (hp ▸ h.legal)
    omega

/-! ### The drain -/

/-- The word of a `Z`. -/
abbrev drainWord : OpWord := xferWord .z

/-- One step of the drain, and its answer. -/
theorem drain_step (n : Nat) (todo : List Request) (t : State) (h : Running (.op drainWord :: todo) t)
    (hd : DrainsWithin (n + 1) t.pstate t.address) :
    ∃ u d, step t = .next u ∧
      ((u.response = some (.transfer false d) ∧ u.pstate = PState.idle) ∨
        (u.response = some (.transfer true d) ∧ Running todo u ∧ DrainsWithin n u.pstate u.address)) := by
  obtain ⟨v, -, hnext, hrun⟩ := h.step (opField_xferWord .z)
  rw [triField_xferWord] at hnext hrun
  refine ⟨_, answerByte (t.setPending todo), hnext, ?_⟩
  by_cases hidle : (afterTransfer .z (t.setPending todo) v).pstate = PState.idle
  · exact .inl ⟨response_afterTransfer_idle _ _ _ hidle, hidle⟩
  · exact .inr ⟨response_afterTransfer_open _ _ _ _ rfl hidle, hrun,
      (drainsWithin_afterTransfer n _ v (h.card.setPending todo) hd).resolve_left hidle⟩

/-- After `k` words the card answers `ack = 0` in `IDLE`, and before that `ack = 1`. -/
def DrainedAt (k : Nat) (s : State) : Prop :=
  (∃ t d, steps k s = .next t ∧ t.response = some (.transfer false d) ∧ t.pstate = PState.idle) ∧
    ∀ j, 1 ≤ j → j < k → ∃ t d, steps j s = .next t ∧ t.response = some (.transfer true d)

theorem drainedAt_one {s t : State} {d : Tri} (hstep : step s = .next t) (hresp : t.response = some (.transfer false d))
    (hp : t.pstate = PState.idle) : DrainedAt 1 s :=
  ⟨⟨t, d, steps_succ 0 s t hstep, hresp, hp⟩, fun _ hlo hhi => absurd hhi (Nat.not_lt.2 hlo)⟩

theorem DrainedAt.succ {k : Nat} {s t : State} {d : Tri} (h : DrainedAt k t) (hstep : step s = .next t)
    (hresp : t.response = some (.transfer true d)) : DrainedAt (k + 1) s := by
  obtain ⟨hend, hbefore⟩ := h
  refine ⟨by rwa [steps_succ k s t hstep], fun j hlo hhi => ?_⟩
  obtain ⟨i, rfl⟩ := Nat.exists_eq_add_of_le' hlo
  rw [steps_succ i s t hstep]
  cases i with
  | zero => exact ⟨t, d, rfl, hresp⟩
  | succ i => exact hbefore _ (Nat.succ_pos i) (Nat.lt_of_succ_lt_succ hhi)

/-- As many words as the bound says drain the card. -/
theorem drain (n : Nat) (t : State) (h : Running (List.replicate n (.op drainWord)) t) (hd : DrainsWithin n t.pstate t.address) :
    ∃ k, 1 ≤ k ∧ k ≤ n ∧ DrainedAt k t := by
  induction n generalizing t with
  | zero => exact absurd hd (not_drainsWithin_zero t h.card)
  | succ n ih =>
    obtain ⟨u, d, hstep, ⟨hresp, hp⟩ | ⟨hresp, hrun, hd'⟩⟩ := drain_step n _ t h hd
    · exact ⟨1, Nat.le_refl 1, Nat.succ_pos n, drainedAt_one hstep hresp hp⟩
    · obtain ⟨k, -, hk, hdrained⟩ := ih u hrun hd'
      exact ⟨k + 1, Nat.succ_pos k, Nat.succ_le_succ hk, hdrained.succ hstep hresp⟩

/-- Settles O49: 136 transfers are enough for every protocol state. -/
theorem drainReachesIdle : Obligations.DrainReachesIdle := fun _ h hon =>
  have hcard := h.setPending (List.replicate 136 (.op drainWord))
  drain 136 _ ⟨hcard, hon, rfl⟩ (drainsWithin_136 _ hcard)

end Sys2Proof.Machine

/-!
The host's slots (60_exceptions.md R240 to R249): what an operation on a card does to the world, and the slots' rule, that a
card in a slot is powered and in no other slot.
-/

namespace Sys2Proof.Machine

/-! ### One operation on one card -/

theorem issue_powerOn (s : State) : issue (.op powerOnWord) s = exec .powerOn s :=
  step_powerOn (s.setPending (.op powerOnWord :: s.pending)) s.pending rfl

/-- A POWER_ON leaves the card powered, and answers 1 exactly on an unpowered card (R100). -/
theorem issue_powerOn_eq (s : State) :
    ∃ t, issue (.op powerOnWord) s = .next t ∧ t.poweredOn = true ∧ t.response = some (.power !s.poweredOn) := by
  rw [issue_powerOn]
  cases hpow : s.poweredOn with
  | true => exact ⟨_, (exec_powerOn_eq_next s _).2 (.inl ⟨hpow, rfl⟩), hpow, rfl⟩
  | false => exact ⟨_, (exec_powerOn_eq_next s _).2 (.inr ⟨hpow, rfl⟩), rfl, rfl⟩

/-- A TRANSFER leaves the card's power (10_state.md R21). -/
theorem poweredOn_of_issue_transfer (cmd : Tri) (s t : State) (h : issue (.op (xferWord cmd)) s = .next t) :
    t.poweredOn = s.poweredOn := by
  have hhead : ∀ w, opField w ≠ 0b00#2 → some (Request.op (xferWord cmd)) ≠ some (.op w) := by
    rintro w hw heq
    cases heq
    exact hw (opField_xferWord cmd)
  obtain ⟨-, hon, hoff⟩ := onlyPowerOperationsWriteFlagAndPower _ t h
  cases hs : s.poweredOn <;> cases ht : t.poweredOn
  · rfl
  · exact absurd (hon hs ht) (hhead _ (by decide))
  · exact absurd (hoff hs ht) (hhead _ (by decide))
  · rfl

/-! ### The world after an operation -/

/-- The world with another card at place `c`. -/
def World.setCard (w : World) (c : Nat) (t : State) : World := ⟨w.cards.set c t, w.slots⟩

/-- The world with another content of slot `k`. -/
def World.setSlot (w : World) (k : Nat) (x : Option Nat) : World := ⟨w.cards, w.slots.set k x⟩

theorem thenDo_eq_next {α β : Type} (r : HostResult α) (f : World → α → HostResult β) (x : World × β) :
    thenDo r f = .next x ↔ ∃ w a, r = .next (w, a) ∧ f w a = .next x := by
  cases r with
  | next p => simp [thenDo, Prod.ext_iff]
  | fault e => simp [thenDo]
  | refused e => simp [thenDo]

/-- An operation on a card that exists. -/
theorem drive_eq (w : World) (c : Nat) (r : Request) (s t : State) (hc : w.cards[c]? = some s)
    (h : issue r s = .next t) : w.drive c r = .next (w.setCard c t, t.response) := by
  simp only [World.drive, hc, h]
  rfl

/-- An operation that answers was on no card, or it put the card it leaves in the card's place. -/
theorem drive_eq_next (w w1 : World) (c : Nat) (r : Request) (a : Option Response)
    (h : w.drive c r = .next (w1, a)) :
    (w.cards[c]? = none ∧ w1 = w) ∨
      ∃ s t, w.cards[c]? = some s ∧ issue r s = .next t ∧ w1 = w.setCard c t ∧ a = t.response := by
  cases hc : w.cards[c]? with
  | none =>
    simp only [World.drive, hc, Host.Outcome.next.injEq, Prod.mk.injEq] at h
    exact .inl ⟨rfl, h.1.symm⟩
  | some s =>
    cases ht : issue r s with
    | next t =>
      rw [drive_eq w c r s t hc ht] at h
      cases h
      exact .inr ⟨s, t, rfl, ht, rfl, rfl⟩
    | fault e => simp [World.drive, hc, ht] at h
    | refused e => simp [World.drive, hc, ht] at h

/-! ### The slots' rule -/

/-- A card that is put in a place powered keeps the rule. -/
theorem SlotInv.setCard {w : World} (h : SlotInv w) (c : Nat) (t : State)
    (ht : (∃ k, w.held k = some c) → t.poweredOn = true) : SlotInv (w.setCard c t) := by
  refine ⟨fun k d hk => ?powered, h.alone⟩
  obtain ⟨s, hs, hon⟩ := h.powered k d hk
  by_cases hd : d = c
  · subst hd
    have hlen : d < w.cards.length := (List.getElem?_eq_some_iff.1 hs).1
    exact ⟨t, by simp [World.setCard, hlen], ht ⟨k, hk⟩⟩
  · exact ⟨s, by simpa [World.setCard, List.getElem?_set_ne (Ne.symm hd)] using hs, hon⟩

/-- What a slot holds after the content of slot `k` was replaced. -/
theorem held_setSlot (w : World) (k j : Nat) (x : Option Nat) (c : Nat) (h : (w.setSlot k x).held j = some c) :
    (j = k ∧ x = some c) ∨ (j ≠ k ∧ w.held j = some c) := by
  rw [World.held, Option.join_eq_some_iff] at h
  obtain rfl | hjk := eq_or_ne j k
  · obtain ⟨hlen, hx⟩ := List.getElem?_eq_some_iff.1 h
    rw [← hx]
    exact .inl ⟨rfl, by simp [World.setSlot]⟩
  · rw [World.setSlot, List.getElem?_set_ne hjk.symm] at h
    exact .inr ⟨hjk, Option.join_eq_some_iff.2 h⟩

/-- A slot that is emptied, or takes a powered card that is in no slot, keeps the rule. -/
theorem SlotInv.setSlot {w : World} (h : SlotInv w) (k : Nat) (x : Option Nat)
    (hx : ∀ c, x = some c → (∃ s, w.cards[c]? = some s ∧ s.poweredOn = true) ∧ ∀ j, w.held j ≠ some c) :
    SlotInv (w.setSlot k x) := by
  refine ⟨fun j c hj => ?powered, fun i j c hi hj => ?alone⟩
  case powered =>
    obtain ⟨-, hc⟩ | ⟨-, hold⟩ := held_setSlot w k j x c hj
    · exact (hx c hc).1
    · exact h.powered j c hold
  case alone =>
    obtain ⟨hik, hc⟩ | ⟨-, hold⟩ := held_setSlot w k i x c hi <;>
      obtain ⟨hjk, hc'⟩ | ⟨-, hold'⟩ := held_setSlot w k j x c hj
    · rw [hik, hjk]
    · exact absurd hold' ((hx c hc).2 j)
    · exact absurd hold ((hx c hc').2 i)
    · exact h.alone i j c hold hold'

/-! ### The three routines -/

/-- `insert_card` on an empty slot and a card that exists: the answer is the POWER_ON's, and the slot takes the card when it
is 1 (60_exceptions.md R241). -/
theorem insertCard_eq (w : World) (k c : Nat) (s : State) (hk : w.slots[k]? = some none) (hc : w.cards[c]? = some s) :
    ∃ t, t.poweredOn = true ∧ insertCard k c w = .next
      (if s.poweredOn then (w.setCard c t, false) else ((w.setCard c t).setSlot k (some c), true)) := by
  obtain ⟨t, hissue, hon, hresp⟩ := issue_powerOn_eq s
  refine ⟨t, hon, ?_⟩
  simp only [insertCard, hk, hc, drive_eq w c _ s t hc hissue, thenDo, hresp]
  cases s.poweredOn <;> rfl

/-- Any other `insert_card` answers false and does nothing. -/
theorem insertCard_eq_false (w : World) (k c : Nat) (h : ¬(w.slots[k]? = some none ∧ ∃ s, w.cards[c]? = some s)) :
    insertCard k c w = .next (w, false) := by
  unfold insertCard
  split
  case h_1 s hk hc => exact absurd ⟨hk, s, hc⟩ h
  case h_2 => rfl

theorem slotInv_insertCard {w w' : World} {k c : Nat} {ok : Bool} (h : SlotInv w)
    (hins : insertCard k c w = .next (w', ok)) : SlotInv w' := by
  by_cases hfree : w.slots[k]? = some none ∧ ∃ s, w.cards[c]? = some s
  · obtain ⟨hk, s, hc⟩ := hfree
    obtain ⟨t, hon, heq⟩ := insertCard_eq w k c s hk hc
    have hset : SlotInv (w.setCard c t) := h.setCard c t fun _ => hon
    rw [heq, Host.Outcome.next.injEq] at hins
    cases hpow : s.poweredOn with
    | true =>
      obtain ⟨rfl, -⟩ := Prod.mk.inj ((if_pos hpow).symm.trans hins)
      exact hset
    | false =>
      obtain ⟨rfl, -⟩ := Prod.mk.inj ((if_neg (by rw [hpow]; decide)).symm.trans hins)
      refine hset.setSlot k _ ?_
      rintro _ ⟨⟩
      have hlen : c < w.cards.length := (List.getElem?_eq_some_iff.1 hc).1
      refine ⟨⟨t, List.getElem?_set_self hlen, hon⟩, fun j hj => ?_⟩
      obtain ⟨s', hc', hon'⟩ := h.powered j c hj
      rw [hc, Option.some.injEq] at hc'
      rw [← hc', hpow] at hon'
      contradiction
  · rw [insertCard_eq_false w k c hfree] at hins
    cases hins
    exact h

theorem slotInv_removeCard {w w' : World} {k : Nat} {ok : Bool} (h : SlotInv w)
    (hrem : removeCard k w = .next (w', ok)) : SlotInv w' := by
  cases hk : w.held k with
  | none =>
    simp only [removeCard, hk] at hrem
    cases hrem
    exact h
  | some c =>
    have hempty : SlotInv (w.setSlot k none) := h.setSlot k none fun _ hc => by contradiction
    simp only [removeCard, hk, thenDo_eq_next] at hrem
    obtain ⟨w1, a, hdrive, hw'⟩ := hrem
    cases hw'
    obtain ⟨-, rfl⟩ | ⟨s, t, -, -, rfl, -⟩ := drive_eq_next w w1 c _ a hdrive
    · exact hempty
    · refine hempty.setCard c t ?_
      rintro ⟨j, hj⟩
      obtain ⟨-, hc⟩ | ⟨hjk, hold⟩ := held_setSlot w k j none c hj
      · contradiction
      · exact absurd (h.alone j k c hold hk) hjk

theorem slotInv_slotTransfer {w w' : World} {k : Nat} {cmd : Tri} {r : Bool × Tri} (h : SlotInv w)
    (htr : slotTransfer k cmd w = .next (w', r)) : SlotInv w' := by
  cases hk : w.held k with
  | none =>
    simp only [slotTransfer, hk] at htr
    cases htr
    exact h
  | some c =>
    simp only [slotTransfer, hk, thenDo_eq_next] at htr
    obtain ⟨w1, a, hdrive, hw'⟩ := htr
    obtain rfl : w1 = w' := by split at hw' <;> cases hw' <;> rfl
    obtain ⟨-, rfl⟩ | ⟨s, t, hc, hissue, rfl, -⟩ := drive_eq_next w w1 c _ a hdrive
    · exact h
    · refine h.setCard c t fun _ => ?_
      obtain ⟨s', hc', hon⟩ := h.powered k c hk
      rw [hc, Option.some.injEq] at hc'
      rw [poweredOn_of_issue_transfer cmd s t hissue, hc', hon]

/-- Settles O53, one routine at a time. -/
theorem slotRoutinesKeepSlotInv : Obligations.SlotRoutinesKeepSlotInv := fun _ h =>
  ⟨fun _ _ _ _ => slotInv_insertCard h, fun _ _ _ => slotInv_removeCard h, fun _ _ _ _ => slotInv_slotTransfer h⟩

/-- Settles O54: the card's POWER_ON answers 0, or the slot holds a card or does not exist. -/
theorem poweredCardCannotBeInserted : Obligations.PoweredCardCannotBeInserted := by
  intro w k c s hc hon
  by_cases hfree : w.slots[k]? = some none ∧ ∃ s, w.cards[c]? = some s
  · obtain ⟨t, -, heq⟩ := insertCard_eq w k c s hfree.1 hc
    exact ⟨_, heq.trans (congrArg _ (if_pos hon)), rfl⟩
  · exact ⟨w, insertCard_eq_false w k c hfree, rfl⟩

end Sys2Proof.Machine
